-- ==== Sys2Proof/Word.lean ====
section
/-! DEFINITION. The word types of the core: bytes, 16-bit words and the operand fields of an instruction word. -/

namespace Sys2Proof

/-- A byte: a memory cell, a V register, an immediate kk (R8, R22, R37). -/
abbrev Byte := BitVec 8

/-- A 16-bit value: an instruction word, a computed address (R90, R94). -/
abbrev Word := BitVec 16

/-- A 12-bit address field nnn (R92). -/
abbrev Addr12 := BitVec 12

/-- A 4-bit field n: the row count of DRW (R92, R94). -/
abbrev Nibble := BitVec 4

end Sys2Proof
end

