-- ==== Sys2Proof/Config.lean ====
section
/-! DEFINITION. The implementation parameters of 00_scope.md R7, all twenty, under their names; the register and key numbers
they give; the font table of 10_state.md R31; and the one free value of the machine, the random byte (43_alu.md R172). The
parameters that stand in types are reducible and simp lemmas, so that a proof sees their values. -/

namespace Sys2Proof

/-! ### Memory and its regions -/

/-- `MEM_SIZE`: bytes of memory, addresses 0x000 to 0xFFF (R7, R37). -/
def Config.memSize : Nat := 4096

/-- The highest address, 0xFFF (R60). -/
def Config.memTop : Nat := 0xFFF

/-- A range of addresses, both ends included. -/
structure AddrRange where
  first : Nat
  last : Nat
  deriving DecidableEq, Repr

/-- `FONT_REGION`: the addresses reserved for the font table (R7; 20_memory.md R61). Reserved by convention alone: nothing
protects them (R71; D27). -/
def Config.fontRegion : AddrRange := ⟨0x000, 0x1FF⟩

/-- `FONT_BASE`: the address of the first font byte (R7, R31; decision D15; UNVERIFIED, log 11: unsafe). -/
def Config.fontBase : Nat := 0x000

/-- `FONT_LEN`: 16 glyphs of 5 bytes (R7). -/
def Config.fontLen : Nat := 80

/-- `GLYPH_COUNT`: glyphs in the font (R7). -/
@[simp] abbrev Config.glyphCount : Nat := 16

/-- `GLYPH_STRIDE`: bytes per glyph (R7). -/
def Config.glyphStride : Nat := 5

/-- `PROGRAM_START`: where a program is loaded and where pc points after reset (R7, R47). -/
def Config.programStart : Nat := 0x200

/-- The longest program a load accepts, 4096 - 0x200 = 3584 bytes (R264). -/
def Config.programMax : Nat := Config.memSize - Config.programStart

/-! ### Registers, stack and keys -/

/-- `NUM_V`: general byte registers (R7, R22). -/
@[simp] abbrev Config.numV : Nat := 16

/-- `I_WIDTH`: bits of the index register (R7, R27). -/
@[simp] abbrev Config.iWidth : Nat := 16

/-- `PC_WIDTH`: bits of the program counter (R7, R24). -/
@[simp] abbrev Config.pcWidth : Nat := 16

/-- `TIMER_WIDTH`: bits of DT and of ST (R7, R28, R29). -/
@[simp] abbrev Config.timerWidth : Nat := 8

/-- `STACK_DEPTH`: entries of the call stack (R7, R30). -/
@[simp] abbrev Config.stackDepth : Nat := 16

/-- `STACK_ENTRY_WIDTH`: bits of one return address (R7, R33; decision D8). -/
@[simp] abbrev Config.stackEntryWidth : Nat := 16

/-- `NUM_KEYS`: keys of the keypad (R7, R34). -/
@[simp] abbrev Config.numKeys : Nat := 16

/-- A register number: the fields x and y (R22, R94: every value is legal). -/
abbrev Reg := Fin Config.numV

/-- A key number, which is also its key code (R34, R217). -/
abbrev Key := Fin Config.numKeys

/-- `FLAG_REG`: the index of VF (R7, R26). -/
def Config.flagReg : Reg := 15

/-! ### The display and the instruction width -/

/-- `WIDTH`: framebuffer columns (R7, R36). -/
@[simp] abbrev Config.width : Nat := 64

/-- `HEIGHT`: framebuffer rows (R7, R36). -/
@[simp] abbrev Config.height : Nat := 32

/-- `SPRITE_WIDTH`: pixels per sprite row, one byte (R7, R192). -/
@[simp] abbrev Config.spriteWidth : Nat := 8

/-- `INSTR_WIDTH`: bytes of an instruction (R7, R90). -/
@[simp] abbrev Config.instrWidth : Nat := 2

/-! ### The font and the random byte -/

/-- Glyphs 0 to 7 of `FONT_DATA` (R31; general knowledge G2, decision D15; UNVERIFIED, log 11: unsafe). -/
def Config.fontLow : List Byte :=
  [0xF0, 0x90, 0x90, 0x90, 0xF0] ++ [0x20, 0x60, 0x20, 0x20, 0x70] ++
  [0xF0, 0x10, 0xF0, 0x80, 0xF0] ++ [0xF0, 0x10, 0xF0, 0x10, 0xF0] ++
  [0x90, 0x90, 0xF0, 0x10, 0x10] ++ [0xF0, 0x80, 0xF0, 0x10, 0xF0] ++
  [0xF0, 0x80, 0xF0, 0x90, 0xF0] ++ [0xF0, 0x10, 0x20, 0x40, 0x40]

/-- Glyphs 8 to F of `FONT_DATA` (R31). -/
def Config.fontHigh : List Byte :=
  [0xF0, 0x90, 0xF0, 0x90, 0xF0] ++ [0xF0, 0x90, 0xF0, 0x10, 0xF0] ++
  [0xF0, 0x90, 0xF0, 0x90, 0x90] ++ [0xE0, 0x90, 0xE0, 0x90, 0xE0] ++
  [0xF0, 0x80, 0x80, 0x80, 0xF0] ++ [0xE0, 0x90, 0x90, 0x90, 0xE0] ++
  [0xF0, 0x80, 0xF0, 0x80, 0xF0] ++ [0xF0, 0x80, 0xF0, 0x80, 0x80]

/-- `FONT_DATA`: the 80 font bytes, glyph 0 first (R31). -/
def Config.fontData : List Byte := Config.fontLow ++ Config.fontHigh

/-- FREE VALUE (DESIGN CHOICE, log 1: safe).
The byte on the input `rnd` at the `n`-th sampling of it, where nobody says which byte the host
drives: "Nothing is promised of the value" (R172; U11: any value). It has no body, so no proof can see a value of it. -/
opaque Config.rndByte : Nat → Byte

end Sys2Proof
end

