-- ==== Sys2Proof/WellFormed.lean ====
section
/-! DEFINITION. What is well formed. An instruction's operands carry their ranges in their types, so every term of `Instr`
passes `WellFormed` (30_encoding.md R94: "no register field can make a word illegal"). The check that can fail is the one on
WORDS: `illegalWord`, written from the table of R98 and not from the decoder, so that the two can be held against each other. -/

namespace Sys2Proof

/-- Every operand is within the width its field has in the word (R92). -/
def WellFormed : Instr → Bool
  | .cls => true
  | .ret => true
  | .jp nnn => nnn.toNat < 4096
  | .call nnn => nnn.toNat < 4096
  | .seByte x kk => x.val < 16 && kk.toNat < 256
  | .sneByte x kk => x.val < 16 && kk.toNat < 256
  | .seReg x y => x.val < 16 && y.val < 16
  | .ldByte x kk => x.val < 16 && kk.toNat < 256
  | .addByte x kk => x.val < 16 && kk.toNat < 256
  | .ldReg x y => x.val < 16 && y.val < 16
  | .orReg x y => x.val < 16 && y.val < 16
  | .andReg x y => x.val < 16 && y.val < 16
  | .xorReg x y => x.val < 16 && y.val < 16
  | .addReg x y => x.val < 16 && y.val < 16
  | .sub x y => x.val < 16 && y.val < 16
  | .shr x y => x.val < 16 && y.val < 16
  | .subn x y => x.val < 16 && y.val < 16
  | .shl x y => x.val < 16 && y.val < 16
  | .sneReg x y => x.val < 16 && y.val < 16
  | .ldI nnn => nnn.toNat < 4096
  | .jpV0 nnn => nnn.toNat < 4096
  | .rnd x kk => x.val < 16 && kk.toNat < 256
  | .drw x y n => x.val < 16 && y.val < 16 && n.toNat < 16
  | .skp x => x.val < 16
  | .sknp x => x.val < 16
  | .ldVxDt x => x.val < 16
  | .ldVxK x => x.val < 16
  | .ldDtVx x => x.val < 16
  | .ldStVx x => x.val < 16
  | .addI x => x.val < 16
  | .ldF x => x.val < 16
  | .ldB x => x.val < 16
  | .storeRegs x => x.val < 16
  | .loadRegs x => x.val < 16

/-- The words of the table of R98, class by class: the words that are no instruction. -/
def illegalWord (w : Word) : Bool :=
  let n := (w.extractLsb' 0 4).toNat
  let kk := (w.extractLsb' 0 8).toNat
  match (w.extractLsb' 12 4).toNat with
  | 0x0 => w != 0x00E0 && w != 0x00EE
  | 0x5 => 1 ≤ n
  | 0x8 => (8 ≤ n && n ≤ 0xD) || n == 0xF
  | 0x9 => 1 ≤ n
  | 0xE => kk != 0x9E && kk != 0xA1
  | 0xF => !([0x07, 0x0A, 0x15, 0x18, 0x1E, 0x29, 0x33, 0x55, 0x65].contains kk)
  | _ => false

end Sys2Proof
end

