-- ==== Sys2Proof/Decode.lean ====
section
/-! DEFINITION. The decoder, a list of rows with a mask and a match as in 30_encoding.md R95 and R96, and after it the
encoder, written from the formats of R93. Every pattern is the spec's conventional one (decision D2, general knowledge
G1; UNVERIFIED, log 11: unsafe). -/

namespace Sys2Proof

/-- w[11:8] (R92). -/
def xField (w : Word) : Reg := (w.extractLsb' 8 4).toFin

/-- w[7:4] (R92). -/
def yField (w : Word) : Reg := (w.extractLsb' 4 4).toFin

/-- w[3:0] (R92). -/
def nField (w : Word) : Nibble := w.extractLsb' 0 4

/-- w[7:0] (R92). -/
def kkField (w : Word) : Byte := w.extractLsb' 0 8

/-- w[11:0] (R92). -/
def nnnField (w : Word) : Addr12 := w.extractLsb' 0 12

/-- Two bytes make a word big-endian, the byte of the lower address on top (R63). -/
def beWord (hi lo : Byte) : Word := hi ++ lo

/-- The byte of a word that lies at the lower address (R63). -/
def highByte (w : Word) : Byte := w.extractLsb' 8 8

/-- The byte of a word that lies at the higher address (R63). -/
def lowByte (w : Word) : Byte := w.extractLsb' 0 8

/-- One row of the opcode map: the row is selected by the words w with `w AND mask = value` (R96). -/
structure Row where
  mask : Word
  value : Word
  build : Word → Instr

/-- R95 rows 1 to 9: the classes 0 to 7. -/
def rowsLow : List Row :=
  [⟨0xFFFF, 0x00E0, fun _ => .cls⟩,
   ⟨0xFFFF, 0x00EE, fun _ => .ret⟩,
   ⟨0xF000, 0x1000, fun w => .jp (nnnField w)⟩,
   ⟨0xF000, 0x2000, fun w => .call (nnnField w)⟩,
   ⟨0xF000, 0x3000, fun w => .seByte (xField w) (kkField w)⟩,
   ⟨0xF000, 0x4000, fun w => .sneByte (xField w) (kkField w)⟩,
   ⟨0xF00F, 0x5000, fun w => .seReg (xField w) (yField w)⟩,
   ⟨0xF000, 0x6000, fun w => .ldByte (xField w) (kkField w)⟩,
   ⟨0xF000, 0x7000, fun w => .addByte (xField w) (kkField w)⟩]

/-- R95 rows 10 to 18: class 8. -/
def rowsAlu : List Row :=
  [⟨0xF00F, 0x8000, fun w => .ldReg (xField w) (yField w)⟩,
   ⟨0xF00F, 0x8001, fun w => .orReg (xField w) (yField w)⟩,
   ⟨0xF00F, 0x8002, fun w => .andReg (xField w) (yField w)⟩,
   ⟨0xF00F, 0x8003, fun w => .xorReg (xField w) (yField w)⟩,
   ⟨0xF00F, 0x8004, fun w => .addReg (xField w) (yField w)⟩,
   ⟨0xF00F, 0x8005, fun w => .sub (xField w) (yField w)⟩,
   ⟨0xF00F, 0x8006, fun w => .shr (xField w) (yField w)⟩,
   ⟨0xF00F, 0x8007, fun w => .subn (xField w) (yField w)⟩,
   ⟨0xF00F, 0x800E, fun w => .shl (xField w) (yField w)⟩]

/-- R95 rows 19 to 25: the classes 9 to E. -/
def rowsMid : List Row :=
  [⟨0xF00F, 0x9000, fun w => .sneReg (xField w) (yField w)⟩,
   ⟨0xF000, 0xA000, fun w => .ldI (nnnField w)⟩,
   ⟨0xF000, 0xB000, fun w => .jpV0 (nnnField w)⟩,
   ⟨0xF000, 0xC000, fun w => .rnd (xField w) (kkField w)⟩,
   ⟨0xF000, 0xD000, fun w => .drw (xField w) (yField w) (nField w)⟩,
   ⟨0xF0FF, 0xE09E, fun w => .skp (xField w)⟩,
   ⟨0xF0FF, 0xE0A1, fun w => .sknp (xField w)⟩]

/-- R95 rows 26 to 34: class F. -/
def rowsHigh : List Row :=
  [⟨0xF0FF, 0xF007, fun w => .ldVxDt (xField w)⟩,
   ⟨0xF0FF, 0xF00A, fun w => .ldVxK (xField w)⟩,
   ⟨0xF0FF, 0xF015, fun w => .ldDtVx (xField w)⟩,
   ⟨0xF0FF, 0xF018, fun w => .ldStVx (xField w)⟩,
   ⟨0xF0FF, 0xF01E, fun w => .addI (xField w)⟩,
   ⟨0xF0FF, 0xF029, fun w => .ldF (xField w)⟩,
   ⟨0xF0FF, 0xF033, fun w => .ldB (xField w)⟩,
   ⟨0xF0FF, 0xF055, fun w => .storeRegs (xField w)⟩,
   ⟨0xF0FF, 0xF065, fun w => .loadRegs (xField w)⟩]

/-- The opcode map (R95). -/
def opcodeRows : List Row := rowsLow ++ rowsAlu ++ rowsMid ++ rowsHigh

/-- `w` selects the row `r` (R96). -/
def selects (w : Word) (r : Row) : Bool := w &&& r.mask == r.value

/-- The instruction a word is, none where no row matches: a decode failure (R96, R98). -/
def decodeWord (w : Word) : Option Instr := (opcodeRows.find? (selects w)).map fun r => r.build w

/-- Why bytes are no instruction. -/
inductive DecodeError where
  /-- The word matches no row (R98). -/
  | decodeFailure (w : Word)
  /-- Fewer than the two bytes of an instruction (R90). -/
  | tooShort
  deriving DecidableEq, Repr

/-- The instruction at the head of bytes in address order, and the bytes after it (R63, R90). -/
def decodeBytes : List Byte → Except DecodeError (Instr × List Byte)
  | hi :: lo :: rest =>
    match decodeWord (beWord hi lo) with
    | some i => .ok (i, rest)
    | none => .error (.decodeFailure (beWord hi lo))
  | _ => .error .tooShort

/-- Format ADDR, cnnn (R93). -/
def wordAddr (c : BitVec 4) (nnn : Addr12) : Word := c ++ nnn

/-- Format REGIMM, cxkk; with a literal kk also format REG, cxhh (R93). -/
def wordRegImm (c : BitVec 4) (x : Reg) (kk : Byte) : Word := c ++ (BitVec.ofFin x : BitVec 4) ++ kk

/-- Formats REGREG and REGREGN, cxyn (R93). -/
def wordRegReg (c : BitVec 4) (x y : Reg) (n : Nibble) : Word :=
  c ++ (BitVec.ofFin x : BitVec 4) ++ (BitVec.ofFin y : BitVec 4) ++ n

/-- The word of an instruction (R93, R95). -/
def encode : Instr → Word
  | .cls => 0x00E0
  | .ret => 0x00EE
  | .jp nnn => wordAddr 0x1 nnn
  | .call nnn => wordAddr 0x2 nnn
  | .seByte x kk => wordRegImm 0x3 x kk
  | .sneByte x kk => wordRegImm 0x4 x kk
  | .seReg x y => wordRegReg 0x5 x y 0x0
  | .ldByte x kk => wordRegImm 0x6 x kk
  | .addByte x kk => wordRegImm 0x7 x kk
  | .ldReg x y => wordRegReg 0x8 x y 0x0
  | .orReg x y => wordRegReg 0x8 x y 0x1
  | .andReg x y => wordRegReg 0x8 x y 0x2
  | .xorReg x y => wordRegReg 0x8 x y 0x3
  | .addReg x y => wordRegReg 0x8 x y 0x4
  | .sub x y => wordRegReg 0x8 x y 0x5
  | .shr x y => wordRegReg 0x8 x y 0x6
  | .subn x y => wordRegReg 0x8 x y 0x7
  | .shl x y => wordRegReg 0x8 x y 0xE
  | .sneReg x y => wordRegReg 0x9 x y 0x0
  | .ldI nnn => wordAddr 0xA nnn
  | .jpV0 nnn => wordAddr 0xB nnn
  | .rnd x kk => wordRegImm 0xC x kk
  | .drw x y n => wordRegReg 0xD x y n
  | .skp x => wordRegImm 0xE x 0x9E
  | .sknp x => wordRegImm 0xE x 0xA1
  | .ldVxDt x => wordRegImm 0xF x 0x07
  | .ldVxK x => wordRegImm 0xF x 0x0A
  | .ldDtVx x => wordRegImm 0xF x 0x15
  | .ldStVx x => wordRegImm 0xF x 0x18
  | .addI x => wordRegImm 0xF x 0x1E
  | .ldF x => wordRegImm 0xF x 0x29
  | .ldB x => wordRegImm 0xF x 0x33
  | .storeRegs x => wordRegImm 0xF x 0x55
  | .loadRegs x => wordRegImm 0xF x 0x65

/-- The two bytes of an instruction in address order (R63). -/
def encodeBytes (i : Instr) : List Byte := [highByte (encode i), lowByte (encode i)]

/-- The instruction the decoder reads from an instruction whose bits are `w`, numbered as spec/opcode_table.json numbers
them: every row is one 16-bit word (R90), so the bits from 16 on are no part of it, and those from `nbits` on are zero. The
word is laid out in memory order and given to `decodeBytes`. -/
def decodeTableWord (nbits w : Nat) : Option Instr :=
  let word : Word := BitVec.ofNat 16 (w % 2 ^ nbits)
  match decodeBytes [highByte word, lowByte word] with
  | .ok (i, _) => some i
  | .error _ => none

end Sys2Proof
end

