-- ==== Sys2Proof/Machine/State.lean ====
section
/-! DEFINITION. The state of the core as plain data: every piece of state 10_state.md names, the two outputs R39 allows a
model to keep, the input `rnd` (R41) and one counter of the model's own. INVENTORY.md lists them with rule and reset value. -/

namespace Sys2Proof.Machine

/-- The kinds of bounds violation (60_exceptions.md R235, R237). -/
inductive BoundsKind where
  /-- pc + 1 > 0xFFF at the fetch (R122). -/
  | fetchOutOfRange
  /-- CALL with sp = 16 (R142). -/
  | stackOverflow
  /-- RET with sp = 0 (R140). -/
  | stackUnderflow
  /-- The highest address of DRW, LD B, LD [I] or LD Vx,[I] is above 0xFFF (R68). -/
  | memIndexOutOfRange
  /-- SKP or SKNP with vx > 15 (R213, R214). -/
  | keyIndexOutOfRange
  /-- LD F with vx > 15 (R182). -/
  | glyphIndexOutOfRange
  /-- A load of more than 3584 bytes (R264). -/
  | loadTooLong
  deriving DecidableEq, Repr

/-- What the fault latch holds: a kind and 16 bits of info (R32, R235). -/
structure Latch where
  kind : BoundsKind
  info : Word
  deriving DecidableEq, Repr

/-- The `status` output (R45, R235), each class but Ok with the port's fault_pc. -/
inductive Status where
  | ok
  | decodeFailure (word : Word) (faultPc : Word)
  | boundsViolation (latch : Latch) (faultPc : Word)
  deriving DecidableEq, Repr

/-- One entry of the blit report: a cell whose sprite bit was 1 and its new value (R195). -/
structure ChangedCell where
  row : Fin Config.height
  col : Fin Config.width
  on : Bool
  deriving DecidableEq, Repr

/-- The `blit_report` output (R46, R195). -/
structure BlitReport where
  changed : List ChangedCell
  collision : Bool
  deriving DecidableEq, Repr

/-- The empty report (R46). -/
def BlitReport.empty : BlitReport := ⟨[], false⟩

/-- The framebuffer `fb[row][col]`, `HEIGHT` rows of `WIDTH` cells, true is on (R36). -/
abbrev FrameBuffer := Vector (Vector Bool Config.width) Config.height

/-- Every cell off (R47, R190). -/
def FrameBuffer.blank : FrameBuffer := Vector.replicate Config.height (Vector.replicate Config.width false)

/-- Memory as the bytes that differ from the reset contents, by rising address (R37; DESIGN CHOICE, log 3: safe). -/
abbrev Mem := List Host.Cell

/-- The state of the core. -/
structure State where
  /-- V0 to VF (R22). -/
  v : Vector Byte Config.numV
  /-- The index register I (R27). -/
  i : BitVec Config.iWidth
  /-- The program counter (R24). -/
  pc : BitVec Config.pcWidth
  /-- The delay timer DT (R28). -/
  dt : BitVec Config.timerWidth
  /-- The sound timer ST (R29). -/
  st : BitVec Config.timerWidth
  /-- The stack pointer, the number of return addresses held (R30). -/
  sp : Fin (Config.stackDepth + 1)
  /-- The call stack (R33). -/
  stack : Vector (BitVec Config.stackEntryWidth) Config.stackDepth
  /-- The key flags (R34). -/
  keys : Vector Bool Config.numKeys
  /-- The current-key record `cur_key` (R35). -/
  curKey : Option Key
  /-- The framebuffer (R36). -/
  fb : FrameBuffer
  /-- Memory (R37). -/
  mem : Mem
  /-- The fault latch (R32). -/
  fault : Option Latch
  /-- The result of the last tick (R45; DESIGN CHOICE, log 7: safe). -/
  status : Status
  /-- The report of the last tick's blit (R46; DESIGN CHOICE, log 7: safe). -/
  blitReport : BlitReport
  /-- The byte the host drives on the input `rnd` (R41); none: it is not said which (DESIGN CHOICE, log 1: safe). -/
  rndPort : Option Byte
  /-- The model's own count of the random bytes sampled, no state of the hardware (DESIGN CHOICE, log 1: safe). -/
  rndDrawn : Nat
  deriving DecidableEq, Repr

/-- Why a step stops with a fault: never. Both error classes of the spec are effects it describes (60_exceptions.md R236,
R238) and so next states (DEDUCED, log 2: safe), and every address, register and key number is checked before use; so the type is empty. -/
inductive Fault where
  deriving DecidableEq, Repr

/-- Why a step is refused. -/
inductive Refusal where
  /-- Raised by an arm of `exec` whose instruction has no meaning yet. Safe: the machine stops where the hardware goes on.
  Every instruction has its meaning, so no arm raises it. -/
  | notModelled (mnemonic : String)
  deriving DecidableEq, Repr

/-- The machine after power-on, every field at the value of the power-on column of R47 (70_reset_and_hazards.md R261;
DEDUCED, log 5). The
last two fields are no state of the hardware (log 1). -/
def State.reset : State where
  v := Vector.replicate Config.numV 0x00
  i := 0x0000
  pc := BitVec.ofNat _ Config.programStart
  dt := 0x00
  st := 0x00
  sp := 0
  stack := Vector.replicate Config.stackDepth 0x0000
  keys := Vector.replicate Config.numKeys false
  curKey := none
  fb := FrameBuffer.blank
  mem := []
  fault := none
  status := .ok
  blitReport := .empty
  rndPort := none
  rndDrawn := 0

end Sys2Proof.Machine
end

