-- ==== Sys2Proof/Machine/Ops.lean ====
section
/-! DEFINITION. The named operations every meaning is written with: memory, registers, the call stack, the framebuffer, the
pc outcome, and the two exceptions (60_exceptions.md): `raiseBounds` is taking a bounds violation, `decodeFailure` the
recoverable failure; the way back from the first is `State.resetOp` and `State.load` (Machine/HostPorts.lean), since there
is no return instruction (R241). -/

namespace Sys2Proof.Machine

/-- What a step answers. -/
abbrev Answer := Host.Outcome State Fault Refusal

/-! ### Memory (20_memory.md) -/

/-- What an address nothing has written reads as: the reset contents, the font and zero elsewhere (R31, R37, R47). -/
def Mem.unlisted (a : Nat) : Byte :=
  if Config.fontBase ≤ a ∧ a < Config.fontBase + Config.fontLen then Config.fontData.getD (a - Config.fontBase) 0 else 0

/-- The byte at an address (R66, for an address in range). -/
def Mem.read : Mem → Nat → Byte
  | [], a => Mem.unlisted a
  | (k, b) :: m, a => if k = a then b else Mem.read m a

/-- Drop what is listed for an address. -/
def Mem.erase (m : Mem) (a : Nat) : Mem := m.filter fun c => c.1 != a

/-- Put a byte before the first higher address. -/
def Mem.insert : Mem → Nat → Byte → Mem
  | [], a, b => [(a, b)]
  | (k, c) :: m, a, b => if a < k then (a, b) :: (k, c) :: m else (k, c) :: Mem.insert m a b

/-- Store a byte, listing it only where it differs from the reset contents; outside the array nothing is written (R67: "no
load operation may write outside the array"). -/
def Mem.write (m : Mem) (a : Nat) (b : Byte) : Mem :=
  if a < Config.memSize then (if b = Mem.unlisted a then m.erase a else (m.erase a).insert a b) else m

/-- Store bytes at ascending addresses (R65). -/
def Mem.writeList : Mem → Nat → List Byte → Mem
  | m, _, [] => m
  | m, a, b :: bs => Mem.writeList (Mem.write m a b) (a + 1) bs

/-- The `n` bytes from `a` on, ascending (R65). -/
def Mem.readList (m : Mem) (a n : Nat) : List Byte := (List.range n).map fun j => Mem.read m (a + j)

/-- The canonical form: addresses strictly rising, inside the array, none listed that holds its reset contents. -/
abbrev Mem.wf (m : Mem) : Prop :=
  m.Pairwise (fun c d => c.1 < d.1) ∧ ∀ c ∈ m, c.1 < Config.memSize ∧ c.2 ≠ Mem.unlisted c.1

/-! ### Registers (10_state.md R22 to R29) -/

/-- Read V[x]. -/
def State.getV (s : State) (x : Reg) : Byte := s.v[x.val]

/-- Write V[x]. -/
def State.setV (s : State) (x : Reg) (b : Byte) : State := { s with v := s.v.set x.val b }

/-- Write I. -/
def State.setI (s : State) (a : Word) : State := { s with i := a }

/-- Write DT. -/
def State.setDt (s : State) (b : Byte) : State := { s with dt := b }

/-- Write ST. -/
def State.setSt (s : State) (b : Byte) : State := { s with st := b }

/-- Store bytes at ascending addresses from `a` on. -/
def State.storeBytes (s : State) (a : Nat) (bs : List Byte) : State := { s with mem := Mem.writeList s.mem a bs }

/-- Fill V0 to Vx from the bytes at `a`, `a + 1`, ..., `a + x` (R185). -/
def State.fillRegs (s : State) (x : Reg) (a : Nat) : State :=
  { s with v := Vector.ofFn fun j => if j ≤ x then Mem.read s.mem (a + j.val) else s.v[j.val] }

/-! ### The call stack (10_state.md R30, R33) -/

/-- Push a return address: write stack[sp], then increment sp; none where all `STACK_DEPTH` entries are held. -/
def State.push? (s : State) (a : Word) : Option State :=
  if h : s.sp.val < Config.stackDepth then
    some { s with stack := s.stack.set s.sp.val a, sp := ⟨s.sp.val + 1, Nat.succ_lt_succ h⟩ }
  else none

/-- Pop: decrement sp, then read stack[sp], which keeps its contents; none where the stack is empty. -/
def State.pop? (s : State) : Option (Word × State) :=
  if h : 0 < s.sp.val then
    some (s.stack[s.sp.val - 1]'(by have := s.sp.isLt; omega), { s with sp := ⟨s.sp.val - 1, by have := s.sp.isLt; omega⟩ })
  else none

/-! ### The random input (43_alu.md R172) -/

/-- The byte on the input `rnd`: the one the host drives, else a free value (log 1). -/
def State.rnd (s : State) : Byte :=
  match s.rndPort with
  | some b => b
  | none => Config.rndByte s.rndDrawn

/-- Count one sampling of the input, so that the next free byte is a fresh one (log 1). -/
def State.sampled (s : State) : State := { s with rndDrawn := s.rndDrawn + 1 }

/-! ### The framebuffer (10_state.md R36) -/

/-- `fb[r][c]`. -/
def FrameBuffer.pixel (fb : FrameBuffer) (r : Fin Config.height) (c : Fin Config.width) : Bool := fb[r.val][c.val]

/-- `fb[r][c] <- b`. -/
def FrameBuffer.setPixel (fb : FrameBuffer) (r : Fin Config.height) (c : Fin Config.width) (b : Bool) : FrameBuffer :=
  fb.set r.val (fb[r.val].set c.val b)

/-- Replace the framebuffer. -/
def State.setFb (s : State) (fb : FrameBuffer) : State := { s with fb := fb }

/-- Replace the blit report. -/
def State.setReport (s : State) (r : BlitReport) : State := { s with blitReport := r }

/-! ### The pc outcome (40_cycle.md R125) -/

/-- The outcome an instruction returns (00_scope.md R11). -/
inductive PcOutcome where
  | next
  | skip
  | block
  | jump (a : Word)
  deriving DecidableEq, Repr

/-- The address `k` instruction widths on, modulo 65536 (00_scope.md R11; D28). -/
def advance (k : Nat) (pc : Word) : Word := pc + BitVec.ofNat 16 (k * Config.instrWidth)

/-- The new pc, from the address of the instruction just executed; modulo 65536 (R125; C1, D3). -/
def PcOutcome.apply : PcOutcome → Word → Word
  | .next, pc => advance 1 pc
  | .skip, pc => advance 2 pc
  | .block, pc => pc
  | .jump a, _ => a

/-- Phases 6 and 7 of the tick after an instruction that raised nothing: apply the outcome, status Ok (R121, R125). -/
def finish (o : PcOutcome) (s : State) : Answer := .next { s with pc := o.apply s.pc, status := .ok }

/-! ### The two exceptions (60_exceptions.md) -/

/-- Take a bounds violation: latch it and report it, change nothing else, pc included (R238). -/
def raiseBounds (kind : BoundsKind) (info : Word) (s : State) : Answer :=
  .next { s with fault := some ⟨kind, info⟩, status := .boundsViolation ⟨kind, info⟩ s.pc }

/-- A word that matches no row: pc + 2, reported for this tick, not latched (40_cycle.md R126, R236; C6, D4). -/
def decodeFailure (w : Word) (s : State) : Answer :=
  .next { s with pc := advance 1 s.pc, status := .decodeFailure w s.pc }

/-- Check the highest of `count` addresses from `first` on before anything is moved (20_memory.md R68): above 0xFFF it is a
bounds violation with that address, modulo 65536, as info (R235), and nothing changes. No address is touched where
`count` is 0. Addresses do not wrap (R60). -/
def guardBlock (first count : Nat) (s : State) (ok : Answer) : Answer :=
  if count ≠ 0 ∧ Config.memTop < first + count - 1 then
    raiseBounds .memIndexOutOfRange (BitVec.ofNat 16 (first + count - 1)) s
  else ok

/-! ### The phases of the tick before execute (40_cycle.md R121) -/

/-- Decremented by one if nonzero, else left at zero (46_timers.md R200). -/
def countDown (t : Byte) : Byte := if t = 0 then 0 else t - 1

/-- Phases 1 and 2: the blit report is emptied and both timers count down. -/
def tickStart (s : State) : State := { s with blitReport := .empty, dt := countDown s.dt, st := countDown s.st }

/-- Phase 0: a halted core answers its latched fault and changes nothing else (R238; D30). -/
def haltedTick (l : Latch) (s : State) : Answer := .next { s with status := .boundsViolation l s.pc }

/-- Phase 3, the range check: pc + 1, computed without wrap, must be at most 0xFFF (R64, R122). -/
def fetchInRange (s : State) : Bool := s.pc.toNat + 1 ≤ Config.memTop

/-- Phase 3, the fetch: the bytes at pc and pc + 1, big-endian (20_memory.md R63, R122). -/
def fetchWord (s : State) : Word := beWord (Mem.read s.mem s.pc.toNat) (Mem.read s.mem (s.pc.toNat + 1))

end Sys2Proof.Machine
end

