-- ==== Sys2Proof/Machine/Flags.lean ====
section
/-! DEFINITION. The arithmetic and its flag (43_alu.md R173): each function gives the result and the flag from the latched
operands; `writeFlagged` makes the two writes in the order of R174. -/

namespace Sys2Proof.Machine

/-- The flag as the byte 0x00 or 0x01 (10_state.md R26). -/
def flagByte (b : Bool) : Byte := if b then 0x01 else 0x00

/-- Write the flag to VF (R26). -/
def State.setFlag (s : State) (b : Bool) : State := s.setV Config.flagReg (flagByte b)

/-- The sum modulo 256; flag iff it exceeds 255 (R166). -/
def addFlag (vx vy : Byte) : Byte × Bool := (BitVec.ofNat 8 (vx.toNat + vy.toNat), 255 < vx.toNat + vy.toNat)

/-- The difference modulo 256; flag iff minuend >= subtrahend (R167, R169; C5). -/
def subFlag (minuend subtrahend : Byte) : Byte × Bool :=
  (BitVec.ofInt 8 (minuend.toNat - subtrahend.toNat), subtrahend.toNat ≤ minuend.toNat)

/-- Half the value; flag the least significant bit (R168). -/
def shrFlag (vx : Byte) : Byte × Bool := (BitVec.ofNat 8 (vx.toNat / 2), vx.getLsbD 0)

/-- Twice the value modulo 256; flag the most significant bit (R170). -/
def shlFlag (vx : Byte) : Byte × Bool := (BitVec.ofNat 8 (vx.toNat * 2), vx.getLsbD 7)

/-- The flag to VF, then the result to Vx: with x = F the result is what VF holds (R174; D9; UNVERIFIED, log 10: unsafe for
x = F). -/
def writeFlagged (x : Reg) (r : Byte × Bool) (s : State) : State := (s.setFlag r.2).setV x r.1

end Sys2Proof.Machine
end

