-- ==== Sys2Proof/Machine/Alu.lean ====
section
/-! DEFINITION. Register load, arithmetic, logic, shifts and random (43_alu.md). -/

namespace Sys2Proof.Machine

/-- `LD Vx, byte` (R160). -/
def execLdByte (x : Reg) (kk : Byte) (s : State) : Answer := finish .next (s.setV x kk)

/-- `ADD Vx, byte` (R161): wraps, VF not written (D12). -/
def execAddByte (x : Reg) (kk : Byte) (s : State) : Answer := finish .next (s.setV x (s.getV x + kk))

/-- `LD Vx, Vy` (R162). -/
def execLdReg (x y : Reg) (s : State) : Answer := finish .next (s.setV x (s.getV y))

/-- `OR Vx, Vy` (R163): VF not written (D11). -/
def execOrReg (x y : Reg) (s : State) : Answer := finish .next (s.setV x (s.getV x ||| s.getV y))

/-- `AND Vx, Vy` (R164): VF not written (D11). -/
def execAndReg (x y : Reg) (s : State) : Answer := finish .next (s.setV x (s.getV x &&& s.getV y))

/-- `XOR Vx, Vy` (R165): VF not written (D11). -/
def execXorReg (x y : Reg) (s : State) : Answer := finish .next (s.setV x (s.getV x ^^^ s.getV y))

/-- `ADD Vx, Vy` (R166). -/
def execAddReg (x y : Reg) (s : State) : Answer := finish .next (writeFlagged x (addFlag (s.getV x) (s.getV y)) s)

/-- `SUB Vx, Vy` (R167): minuend Vx. -/
def execSub (x y : Reg) (s : State) : Answer := finish .next (writeFlagged x (subFlag (s.getV x) (s.getV y)) s)

/-- `SHR Vx` (R168): y ignored (D10). -/
def execShr (x : Reg) (s : State) : Answer := finish .next (writeFlagged x (shrFlag (s.getV x)) s)

/-- `SUBN Vx, Vy` (R169): minuend Vy. -/
def execSubn (x y : Reg) (s : State) : Answer := finish .next (writeFlagged x (subFlag (s.getV y) (s.getV x)) s)

/-- `SHL Vx` (R170): y ignored (D10). -/
def execShl (x : Reg) (s : State) : Answer := finish .next (writeFlagged x (shlFlag (s.getV x)) s)

/-- `RND Vx, byte` (R171): the input `rnd`, sampled once, AND kk (general knowledge G6, D22; log 1). -/
def execRnd (x : Reg) (kk : Byte) (s : State) : Answer := finish .next ((s.setV x (s.rnd &&& kk)).sampled)

end Sys2Proof.Machine
end

