-- ==== Sys2Proof/Machine/Operands.lean ====
section
/-! DEFINITION. The operand forms: addresses and immediates (30_encoding.md R94), the one data addressing mode
(44_index_memory.md R186), glyph and key numbers, BCD digits. -/

namespace Sys2Proof.Machine

/-- nnn as a 16-bit address, `zext_16(nnn)` (R94). -/
def zextAddr (nnn : Addr12) : Word := nnn.setWidth 16

/-- A byte as 16 bits, `zext_16(vx)` (R143, R181). -/
def zextByte (b : Byte) : Word := b.setWidth 16

/-- A key code as a byte, `zext_8(k)` (R215). -/
def keyCode (k : Key) : Byte := BitVec.ofNat 8 k.val

/-- The address of the first byte of a transfer; the j-th lies at this plus j, without wrap (R186). -/
def base (s : State) : Nat := s.i.toNat

/-- The number a register names in a table of `n` entries, the keys or the glyphs: none where the byte is `n` or more (R182,
R213, R214). -/
def index? (n : Nat) (b : Byte) : Option (Fin n) := if h : b.toNat < n then some ⟨b.toNat, h⟩ else none

/-- The address of a glyph's first byte, FONT_BASE + 5 g (R182). -/
def glyphAddr (g : Fin Config.glyphCount) : Word := BitVec.ofNat 16 (Config.fontBase + Config.glyphStride * g.val)

/-- The decimal digits of a byte, hundreds, tens, ones (R183; general knowledge G8, D21). -/
def bcdDigits (b : Byte) : List Byte :=
  [BitVec.ofNat 8 (b.toNat / 100), BitVec.ofNat 8 (b.toNat / 10 % 10), BitVec.ofNat 8 (b.toNat % 10)]

/-- The values of V0 to Vx, ascending (R184). -/
def regBlock (s : State) (x : Reg) : List Byte := s.v.toList.take (x.val + 1)

end Sys2Proof.Machine
end

