-- ==== Sys2Proof/Machine/Control.lean ====
section
/-! DEFINITION. Control transfer (41_control_flow.md). -/

namespace Sys2Proof.Machine

/-- `RET` (R140). -/
def execRet (s : State) : Answer :=
  match s.pop? with
  | some (a, t) => finish (.jump a) t
  | none => raiseBounds .stackUnderflow s.pc s

/-- `JP addr` (R141). -/
def execJp (nnn : Addr12) (s : State) : Answer := finish (.jump (zextAddr nnn)) s

/-- `CALL addr` (R142): the return address is that of the next instruction, pc + 2. -/
def execCall (nnn : Addr12) (s : State) : Answer :=
  match s.push? (advance 1 s.pc) with
  | some t => finish (.jump (zextAddr nnn)) t
  | none => raiseBounds .stackOverflow s.pc s

/-- `JP V0, addr` (R143): the sum is not masked to 12 bits. -/
def execJpV0 (nnn : Addr12) (s : State) : Answer := finish (.jump (zextAddr nnn + zextByte (s.getV 0))) s

end Sys2Proof.Machine
end

