-- ==== Sys2Proof/Machine/Display.lean ====
section
/-! DEFINITION. The clear, the blit engine and the sprite draw (45_display.md). -/

namespace Sys2Proof.Machine

/-- What a blit has done so far: the framebuffer, the collision and the list `changed` (R192). -/
structure BlitState where
  fb : FrameBuffer
  collision : Bool
  changed : List ChangedCell
  deriving DecidableEq, Repr

/-- The body of the inner loop: XOR one sprite bit onto a cell; a cell turned off is a collision (R192, R193); a cell whose
bit is 1 is reported with its new value (R195). -/
def blitBit (b : BlitState) (r : Fin Config.height) (c : Fin Config.width) (bit : Bool) : BlitState :=
  let old := b.fb.pixel r c
  let new := old ^^ bit
  { fb := b.fb.setPixel r c new
    collision := b.collision || (bit && old)
    changed := if bit then b.changed ++ [⟨r, c, new⟩] else b.changed }

/-- The row of sprite row `j`, counted with the start row: `mod height` (R192, R194). -/
def blitRowOf (y : Nat) : Fin Config.height := Fin.ofNat Config.height y

/-- The column of sprite bit `i`, counted with the start column: `mod width` (R192, R194). -/
def blitColOf (x : Nat) : Fin Config.width := Fin.ofNat Config.width x

/-- The inner loop: the `SPRITE_WIDTH` bits of one sprite row, most significant bit first (R192). -/
def blitRow (x0 : Nat) (r : Fin Config.height) (row : Byte) (b : BlitState) : BlitState :=
  (List.range Config.spriteWidth).foldl
    (fun b i => blitBit b r (blitColOf (x0 + i)) (row.getLsbD (Config.spriteWidth - 1 - i))) b

/-- The outer loop: the sprite rows from row `y` down (R192). -/
def blitRows (x0 : Nat) : Nat → List Byte → BlitState → BlitState
  | _, [], b => b
  | y, row :: rows, b => blitRows x0 (y + 1) rows (blitRow x0 (blitRowOf y) row b)

/-- `Blit(x0, y0, rows)` on a framebuffer (R192). -/
def blit (fb : FrameBuffer) (x0 y0 : Nat) (rows : List Byte) : BlitState := blitRows x0 y0 rows ⟨fb, false, []⟩

/-- `CLS` (R190). -/
def execCls (s : State) : Answer := finish .next (s.setFb .blank)

/-- The blit `DRW` makes in `s`: column Vx, row Vy, `n` rows from memory at I, all latched (R191; general knowledge G7). -/
def drawn (x y : Reg) (n : Nibble) (s : State) : BlitState :=
  blit s.fb (s.getV x).toNat (s.getV y).toNat (s.mem.readList (base s) n.toNat)

/-- `DRW Vx, Vy, nibble` (R191): VF is written on every draw (D19). -/
def execDrw (x y : Reg) (n : Nibble) (s : State) : Answer :=
  let b := drawn x y n s
  guardBlock (base s) n.toNat s
    (finish .next (((s.setFb b.fb).setFlag b.collision).setReport ⟨b.changed, b.collision⟩))

end Sys2Proof.Machine
end

