-- ==== Sys2Proof/Machine/Index.lean ====
section
/-! DEFINITION. Index register operations, BCD unpack and bulk transfer (44_index_memory.md). I is never changed by a memory
access (R186). -/

namespace Sys2Proof.Machine

/-- `LD I, addr` (R180). -/
def execLdI (nnn : Addr12) (s : State) : Answer := finish .next (s.setI (zextAddr nnn))

/-- `ADD I, Vx` (R181): 16-bit wrap, VF not written (D13). -/
def execAddI (x : Reg) (s : State) : Answer := finish .next (s.setI (s.i + zextByte (s.getV x)))

/-- `LD F, Vx` (R182): a glyph number above 15 is a bounds violation (D16). -/
def execLdF (x : Reg) (s : State) : Answer :=
  match index? Config.glyphCount (s.getV x) with
  | some g => finish .next (s.setI (glyphAddr g))
  | none => raiseBounds .glyphIndexOutOfRange (zextByte (s.getV x)) s

/-- `LD B, Vx` (R183). -/
def execLdB (x : Reg) (s : State) : Answer :=
  guardBlock (base s) 3 s (finish .next (s.storeBytes (base s) (bcdDigits (s.getV x))))

/-- `LD [I], Vx` (R184): V0 to Vx inclusive (D18). -/
def execStoreRegs (x : Reg) (s : State) : Answer :=
  guardBlock (base s) (x.val + 1) s (finish .next (s.storeBytes (base s) (regBlock s x)))

/-- `LD Vx, [I]` (R185): V0 to Vx inclusive (D18). -/
def execLoadRegs (x : Reg) (s : State) : Answer :=
  guardBlock (base s) (x.val + 1) s (finish .next (s.fillRegs x (base s)))

end Sys2Proof.Machine
end

