-- ==== Sys2Proof/Machine/Keypad.lean ====
section
/-! DEFINITION. The key skips and the blocking key wait (47_keypad.md). -/

namespace Sys2Proof.Machine

/-- `SKP Vx` (R213): a key number above 15 is a bounds violation (D17). -/
def execSkp (x : Reg) (s : State) : Answer :=
  match index? Config.numKeys (s.getV x) with
  | some k => finish (if s.keys[k.val] then .skip else .next) s
  | none => raiseBounds .keyIndexOutOfRange (zextByte (s.getV x)) s

/-- `SKNP Vx` (R214). -/
def execSknp (x : Reg) (s : State) : Answer :=
  match index? Config.numKeys (s.getV x) with
  | some k => finish (if s.keys[k.val] then .next else .skip) s
  | none => raiseBounds .keyIndexOutOfRange (zextByte (s.getV x)) s

/-- `LD Vx, K` (R215): the record alone is tested (D31), and it is not cleared. -/
def execLdVxK (x : Reg) (s : State) : Answer :=
  match s.curKey with
  | none => finish .block s
  | some k => finish .next (s.setV x (keyCode k))

end Sys2Proof.Machine
end

