-- ==== Sys2Proof/Machine/Skip.lean ====
section
/-! DEFINITION. The conditional skips on registers (42_skip.md). -/

namespace Sys2Proof.Machine

/-- Skip where the condition holds, else Next (R125). -/
def skipIf (c : Bool) (s : State) : Answer := finish (if c then .skip else .next) s

/-- `SE Vx, byte` (R150). -/
def execSeByte (x : Reg) (kk : Byte) (s : State) : Answer := skipIf (s.getV x == kk) s

/-- `SNE Vx, byte` (R151). -/
def execSneByte (x : Reg) (kk : Byte) (s : State) : Answer := skipIf (s.getV x != kk) s

/-- `SE Vx, Vy` (R152). -/
def execSeReg (x y : Reg) (s : State) : Answer := skipIf (s.getV x == s.getV y) s

/-- `SNE Vx, Vy` (R153). -/
def execSneReg (x y : Reg) (s : State) : Answer := skipIf (s.getV x != s.getV y) s

end Sys2Proof.Machine
end

