-- ==== Sys2Proof/Machine/Timer.lean ====
section
/-! DEFINITION. The timer instructions (46_timers.md); the countdown itself is `countDown` and `tickStart` in Machine/Ops.lean. -/

namespace Sys2Proof.Machine

/-- `LD Vx, DT` (R201): DT as this tick's decrement left it. -/
def execLdVxDt (x : Reg) (s : State) : Answer := finish .next (s.setV x s.dt)

/-- `LD DT, Vx` (R202). -/
def execLdDtVx (x : Reg) (s : State) : Answer := finish .next (s.setDt (s.getV x))

/-- `LD ST, Vx` (R203). -/
def execLdStVx (x : Reg) (s : State) : Answer := finish .next (s.setSt (s.getV x))

end Sys2Proof.Machine
end

