-- ==== Sys2Proof/Machine/Step.lean ====
section
/-! DEFINITION. The tick (40_cycle.md R121) and the host's placing of an instruction at the fetch. -/

namespace Sys2Proof.Machine

/-- Phases 3 to 7 of the tick: range check, fetch, decode, execute (R121, R122, R126). -/
def fetchExecute (s : State) : Host.Outcome State Fault Refusal :=
  if fetchInRange s then
    match decodeWord (fetchWord s) with
    | some i => exec i s
    | none => decodeFailure (fetchWord s) s
  else raiseBounds .fetchOutOfRange s.pc s

/-- One tick (R121): a halted core answers its fault; otherwise report and timers first, then fetch and execute. -/
def step (s : State) : Host.Outcome State Fault Refusal :=
  match s.fault with
  | some l => haltedTick l s
  | none => fetchExecute (tickStart s)

/-- `s` with the instruction whose bits are `w` in memory where the next tick fetches, at pc and pc + 1, big-endian (R63).
Every instruction is one word (R90), so bits from 16 on are no part of it. A running core with pc at most 0xFFE fetches
it; it stands for the load of a program (DEDUCED, log 6: safe). -/
def State.withFetchWord (s : State) (nbits w : Nat) : State :=
  let word : Word := BitVec.ofNat 16 (w % 2 ^ nbits)
  s.storeBytes s.pc.toNat [highByte word, lowByte word]

end Sys2Proof.Machine
end

