-- ==== Sys2Proof/Machine/HostPorts.lean ====
section
/-! DEFINITION. The host's moves on the state between ticks, and its queries (10_state.md R40 to R46; 60_exceptions.md R249). -/

namespace Sys2Proof.Machine

/-- The reset operation (70_reset_and_hazards.md R260): every field as after power-on but the key state (R262; D24) and what
is no state of the hardware (log 1). -/
def State.resetOp (s : State) : State :=
  { State.reset with keys := s.keys, curKey := s.curKey, rndPort := s.rndPort, rndDrawn := s.rndDrawn }

/-- Power-on: a reset with no key down and none recorded (R261). -/
def State.powerOn (s : State) : State :=
  { s.resetOp with keys := Vector.replicate Config.numKeys false, curKey := none }

/-- Program load (R264; C4): a reset, then the bytes at 0x200 on; more than 3584 bytes copy nothing and latch LoadTooLong
(D25), with fault_pc 0x0200 and the length, saturated, as info (R235). -/
def State.load (s : State) (bytes : List Byte) : State :=
  let r := s.resetOp
  if Config.programMax < bytes.length then
    let l : Latch := ⟨.loadTooLong, BitVec.ofNat 16 (min bytes.length 0xFFFF)⟩
    { r with fault := some l, status := .boundsViolation l r.pc }
  else r.storeBytes Config.programStart bytes

/-- `key_down(k)` (47_keypad.md R211). -/
def State.keyDown (s : State) (k : Key) : State := { s with keys := s.keys.set k.val true, curKey := some k }

/-- `key_up(k)` (R212): the record is cleared only if it names k. -/
def State.keyUp (s : State) (k : Key) : State :=
  { s with keys := s.keys.set k.val false, curKey := if s.curKey = some k then none else s.curKey }

/-- Drive a byte on the input `rnd` (R41). -/
def State.driveRnd (s : State) (b : Byte) : State := { s with rndPort := some b }

/-- The output `sound_active` (46_timers.md R204). -/
def State.soundActive (s : State) : Bool := s.st != 0

/-- The frame query `pixel(row, col)` (45_display.md R196): out of range it gets no answer (D29). -/
def State.pixelQuery (s : State) (row col : Nat) : Option Bool :=
  if h : row < Config.height ∧ col < Config.width then some (s.fb.pixel ⟨row, h.1⟩ ⟨col, h.2⟩) else none

/-- The bulk frame query, all cells (R44, R196). -/
def State.frame (s : State) : FrameBuffer := s.fb

/-- The code of a kind on the status port (60_exceptions.md R235; D6). -/
def BoundsKind.code : BoundsKind → BitVec 3
  | .fetchOutOfRange => 1
  | .stackOverflow => 2
  | .stackUnderflow => 3
  | .memIndexOutOfRange => 4
  | .keyIndexOutOfRange => 5
  | .glyphIndexOutOfRange => 6
  | .loadTooLong => 7

/-- The fields of the status port (R235). -/
structure StatusPort where
  cls : BitVec 2
  kind : BitVec 3
  info : Word
  faultPc : Word
  deriving DecidableEq, Repr

/-- The status as the port carries it (R235): fault_pc is the pc at the start of the tick, "for every class but Ok and
LoadTooLong (where it is 0x0200)"; the parenthesis is read of both (DEDUCED, log 8: unsafe for class Ok). -/
def Status.port : Status → StatusPort
  | .ok => ⟨0, 0, 0, 0x0200⟩
  | .decodeFailure w p => ⟨1, 0, w, p⟩
  | .boundsViolation l p => ⟨2, l.kind.code, l.info, p⟩

end Sys2Proof.Machine
end

