-- ==== Sys2Proof/Machine/HostMoves.lean ====
section
/-! DEFINITION. The host's moves, complete (60_exceptions.md R249), and runs of them: ticks and host events in the one order
in which the host issues them (10_state.md R20, 20_memory.md R73, 40_cycle.md R129). The queries of R249 change nothing and
are functions of Machine/HostPorts.lean. -/

namespace Sys2Proof.Machine

/-- A move of the host (R249). -/
inductive HostMove where
  | tick (rnd : Byte)
  | reset
  | load (bytes : List Byte)
  | keyDown (k : Key)
  | keyUp (k : Key)
  deriving DecidableEq, Repr

/-- What a move does. A tick comes with the random byte the host offers (R41). -/
def hostMove (m : HostMove) (s : State) : Host.Outcome State Fault Refusal :=
  match m with
  | .tick b => step (s.driveRnd b)
  | .reset => .next s.resetOp
  | .load bytes => .next (s.load bytes)
  | .keyDown k => .next (s.keyDown k)
  | .keyUp k => .next (s.keyUp k)

/-- A run: the moves in the order issued. -/
def runMoves : List HostMove → State → Host.Outcome State Fault Refusal
  | [], s => .next s
  | m :: ms, s =>
    match hostMove m s with
    | .next t => runMoves ms t
    | .fault r => .fault r
    | .refused r => .refused r

end Sys2Proof.Machine
end

