-- ==== Sys2Proof/Safety.lean ====
section
/-! DEFINITION. What counts as a safe run (60_exceptions.md R230, R238; U12) and the invariants of the state. -/

namespace Sys2Proof.Machine

/-- Running, not halted (R238, R243). -/
def State.running (s : State) : Bool := s.fault == none

/-- A tick that raised nothing (R45). -/
def State.tickOk (s : State) : Bool := s.status == .ok

/-- `k` ticks from `s`, each reporting Ok: no bounds violation and no decode failure on the way (U12). -/
def SafeRun : Nat → State → Prop
  | 0, _ => True
  | k + 1, s => ∃ t, step s = .next t ∧ t.tickOk = true ∧ SafeRun k t

/-- Memory is in its canonical form; the status and the report agree with the fault latch: while one is latched, the status
is that violation at the pc the core halted on, and the report is empty; while none is, the status is no violation. -/
structure Consistent (s : State) : Prop where
  memWf : Mem.wf s.mem
  latched : ∀ l, s.fault = some l → s.status = .boundsViolation l s.pc ∧ s.blitReport = .empty
  unlatched : s.fault = none → ∀ l p, s.status ≠ .boundsViolation l p

/-- pc is at most 0x10FE, the largest value a Jump can give, and no return address is above 0x1000 (10_state.md R25,
41_control_flow.md R140). -/
structure PcBounded (s : State) : Prop where
  pc : s.pc.toNat ≤ 0x10FE
  stack : ∀ k : Fin 16, s.stack[k.val].toNat ≤ 0x1000

end Sys2Proof.Machine
end

