-- ==== Sys2Proof/Certificates/Slice0/Obligations.lean ====
section
/-! DEFINITION. The statements for the provers. `stated` and `derived` are OBLIGATIONS.json's words; a statement that rests on
a decision `D<n>` of 92_eei_decisions.md, on general knowledge `G<n>` of 93_implementation_defined.md or on an entry of the
assumption log says so in its docstring. Registers, keys and stack entries are read by their numbers, as `s.v[x.val]`. -/

open Sys2Proof Sys2Proof.Machine

/-! ### Words used in several statements -/

/-- Bit i of sprite row j is 1 and lies, wrapped, on the cell (r, c): `n` rows from address `a`, drawn at column `x0`, row `y0`
(45_display.md R192, R194). -/
def Sys2Proof.SpriteCovers (m : Mem) (a n x0 y0 : Nat) (r : Fin 32) (c : Fin 64) : Prop :=
  ∃ j < n, ∃ i < 8,
    r.val = (y0 + j) % 32 ∧ c.val = (x0 + i) % 64 ∧ (m.read (a + j)).getLsbD (7 - i) = true

/-- One entry for each bit that is 1, with its cell's value in `fb`, in the loop order of R192: sprite row by sprite row, in
each row the most significant bit first; rows, column and row as in `SpriteCovers` (45_display.md R195). -/
def Sys2Proof.reportInLoopOrder (m : Mem) (a n x0 y0 : Nat) (fb : FrameBuffer) : List ChangedCell :=
  (List.range n).flatMap fun j =>
    ((List.range 8).filter fun i => (m.read (a + j)).getLsbD (7 - i)).map fun i =>
      ⟨Fin.ofNat 32 (y0 + j), Fin.ofNat 64 (x0 + i), fb.pixel (Fin.ofNat 32 (y0 + j)) (Fin.ofNat 64 (x0 + i))⟩

/-- The word the core fetches in `s`: the bytes at pc and pc + 1, big-endian (20_memory.md R63). -/
def Sys2Proof.fetched (s : State) : Word := s.mem.read s.pc.toNat ++ s.mem.read (s.pc.toNat + 1)

/-- The instruction a tick of the running core executes in `s`. -/
def Sys2Proof.executes (s : State) (i : Instr) : Prop :=
  s.fault = none ∧ s.pc.toNat + 1 ≤ 0xFFF ∧ decodeWord (fetched s) = some i

/-- `s` after phases 1 and 2 of the tick (40_cycle.md R121). -/
def Sys2Proof.afterCountdown (s : State) : State :=
  { s with blitReport := ⟨[], false⟩, dt := BitVec.ofNat 8 (s.dt.toNat - 1), st := BitVec.ofNat 8 (s.st.toNat - 1) }

/-- `s` with a bounds violation taken: latched and reported, everything else as it was (60_exceptions.md R238; D5). -/
def Sys2Proof.violated (kind : BoundsKind) (info : Word) (s : State) : State :=
  { s with fault := some ⟨kind, info⟩, status := .boundsViolation ⟨kind, info⟩ s.pc }

/-! ### Encoding -/

/-- Decoding an encoded instruction gives it back, as a word and as bytes in memory order followed by anything (R63, R92,
R93, R95; the patterns are decision D2). -/
def Obligations.DecodeOfEncodedInstruction : Prop :=
  ∀ i : Instr, decodeWord (encode i) = some i ∧ ∀ rest, decodeBytes (encodeBytes i ++ rest) = .ok (i, rest)

/-- A word that decodes is the word of the instruction it decodes to: no bit is dropped (R92, R96; D2). -/
def Obligations.EncodeOfDecodedWord : Prop :=
  ∀ (w : Word) (i : Instr), decodeWord w = some i → encode i = w

/-- No two rows of the opcode map match one word (R96, derived there from R95). -/
def Obligations.OpcodeRowsNeverOverlap : Prop :=
  ∀ (w : Word) (a b : Fin opcodeRows.length),
    w &&& opcodeRows[a].mask = opcodeRows[a].value → w &&& opcodeRows[b].mask = opcodeRows[b].value → a = b

/-- The words that are no instruction are exactly those of the table of R98 (derived there from R95). -/
def Obligations.DecodeFailsExactlyOnIllegalWords : Prop :=
  ∀ w : Word, decodeWord w = none ↔ illegalWord w = true

/-- The worked examples of 30_encoding.md section 6. -/
def Obligations.DecodesWorkedExamples : Prop :=
  decodeWord 0x00E0 = some .cls ∧ decodeWord 0x120C = some (.jp 0x20C) ∧
  decodeWord 0x6A3F = some (.ldByte 0xA 0x3F) ∧ decodeWord 0x8124 = some (.addReg 1 2) ∧
  decodeWord 0xD125 = some (.drw 1 2 5) ∧ decodeWord 0xF265 = some (.loadRegs 2) ∧
  decodeWord 0xE0A1 = some (.sknp 0) ∧ decodeWord 0x5121 = none ∧ decodeWord 0x0000 = none

/-! ### Reset, load and the host's ports -/

/-- The power-on column of R47, field by field: the registers, pc, the timers, the stack, the keys, the display, the latch
and the outputs (D24 for sp, DT, ST, the keys and the outputs). -/
def Obligations.ResetRegistersAndOutputs : Prop :=
  (∀ x : Reg, State.reset.v[x.val] = 0) ∧ State.reset.i = 0 ∧ State.reset.pc = 0x200 ∧ State.reset.dt = 0 ∧
  State.reset.st = 0 ∧ State.reset.sp.val = 0 ∧ (∀ k : Fin 16, State.reset.stack[k.val] = 0) ∧
  (∀ k : Key, State.reset.keys[k.val] = false) ∧ State.reset.curKey = none ∧
  (∀ r c, State.reset.fb.pixel r c = false) ∧ State.reset.fault = none ∧ State.reset.status = .ok ∧
  State.reset.blitReport = ⟨[], false⟩

/-- Memory after reset: the font's bytes from FONT_BASE on, inside FONT_REGION, and zero at every other of the 4096 addresses
(R7, R31, R47; the font's place and bytes are D15, G2). -/
def Obligations.ResetMemoryIsFontThenZero : Prop :=
  Config.fontData.length = 80 ∧
  (∀ (a : Nat) (h : a < Config.fontData.length), State.reset.mem.read (Config.fontBase + a) = Config.fontData[a]) ∧
  (Config.fontRegion.first ≤ Config.fontBase ∧ Config.fontBase + 80 ≤ Config.fontRegion.last + 1) ∧
  ∀ a, a ≤ 0xFFF → (a < Config.fontBase ∨ Config.fontBase + 80 ≤ a) → State.reset.mem.read a = 0

/-- The reset operation leaves the key state and puts every other piece of state at its reset value; power-on also clears
the key state (R260 to R262; D24). -/
def Obligations.ResetOperationKeepsOnlyTheKeys : Prop :=
  ∀ s : State,
    (s.resetOp.v = State.reset.v ∧ s.resetOp.i = 0 ∧ s.resetOp.pc = 0x200 ∧ s.resetOp.dt = 0 ∧ s.resetOp.st = 0 ∧
      s.resetOp.sp = 0 ∧ s.resetOp.stack = State.reset.stack ∧ s.resetOp.fb = State.reset.fb ∧
      (∀ a, s.resetOp.mem.read a = State.reset.mem.read a) ∧ s.resetOp.fault = none ∧ s.resetOp.status = .ok ∧
      s.resetOp.blitReport = ⟨[], false⟩) ∧
    s.resetOp.keys = s.keys ∧ s.resetOp.curKey = s.curKey ∧
    s.powerOn = { s.resetOp with keys := Vector.replicate 16 false, curKey := none }

/-- Program load (R264; C4): at most 3584 bytes go verbatim to 0x200 on after a reset and nothing else differs from the
reset; a longer sequence copies nothing and latches LoadTooLong (D25). -/
def Obligations.LoadPlacesProgramOrLatches : Prop :=
  ∀ (s : State) (bytes : List Byte),
    (bytes.length ≤ 3584 →
      (∀ (j : Nat) (h : j < bytes.length), (s.load bytes).mem.read (0x200 + j) = bytes[j]) ∧
      (∀ a, (a < 0x200 ∨ 0x200 + bytes.length ≤ a) → (s.load bytes).mem.read a = State.reset.mem.read a) ∧
      s.load bytes = { s.resetOp with mem := (s.load bytes).mem }) ∧
    (3584 < bytes.length →
      s.load bytes = violated .loadTooLong (BitVec.ofNat 16 (min bytes.length 0xFFFF)) s.resetOp)

/-- `key_down(k)` (R211): sets the flag, records k as the current key, changes nothing else; on a halted core too. -/
def Obligations.KeyDownSetsFlagAndRecord : Prop :=
  ∀ (s : State) (k : Key),
    (∀ j : Key, (s.keyDown k).keys[j.val] = if j = k then true else s.keys[j.val]) ∧
    s.keyDown k = { s with keys := (s.keyDown k).keys, curKey := some k }

/-- `key_up(k)` (R212): clears the flag, clears the record only if it names k, changes nothing else. -/
def Obligations.KeyUpClearsFlagAndOwnRecord : Prop :=
  ∀ (s : State) (k : Key),
    (∀ j : Key, (s.keyUp k).keys[j.val] = if j = k then false else s.keys[j.val]) ∧
    s.keyUp k = { s with keys := (s.keyUp k).keys, curKey := if s.curKey = some k then none else s.curKey }

/-- `sound_active` is true iff ST is nonzero (R204). -/
def Obligations.SoundActiveIffTimerNonzero : Prop :=
  ∀ s : State, s.soundActive = true ↔ s.st ≠ 0

/-- The frame query (R44, R196): a pixel in range is its cell, and the bulk form answers every cell; out of range there is no
answer (D29). -/
def Obligations.PixelQueryReadsTheCell : Prop :=
  ∀ (s : State) (row col : Nat),
    (∀ (hr : row < 32) (hc : col < 64),
      s.pixelQuery row col = some (s.fb[row][col]) ∧ s.frame[row][col] = s.fb[row][col]) ∧
    (¬ (row < 32 ∧ col < 64) → s.pixelQuery row col = none)

/-- The status port's class, kind, info and fault_pc for every status (R235; the codes are D6; fault_pc for class Ok is the
model's reading, log 8), the seven kinds in the order of the table; and the port after a load that is too long. -/
def Obligations.StatusPortCarriesTheCodes : Prop :=
  Status.ok.port = ⟨0, 0, 0, 0x0200⟩ ∧
  (∀ w p : Word, (Status.decodeFailure w p).port = ⟨1, 0, w, p⟩) ∧
  (∀ info p : Word,
    [BoundsKind.fetchOutOfRange, .stackOverflow, .stackUnderflow, .memIndexOutOfRange, .keyIndexOutOfRange,
      .glyphIndexOutOfRange, .loadTooLong].map (fun k => (Status.boundsViolation ⟨k, info⟩ p).port) =
    [1, 2, 3, 4, 5, 6, 7].map fun code => ⟨2, code, info, p⟩) ∧
  ∀ (s : State) (bytes : List Byte), 3584 < bytes.length →
    (s.load bytes).status.port = ⟨2, 7, BitVec.ofNat 16 (min bytes.length 0xFFFF), 0x0200⟩

/-! ### The tick -/

/-- A tick of the running core whose word decodes is that instruction's execution, on the state after the report is emptied
and both timers have counted down (R121). -/
def Obligations.StepRunsTheDecodedInstruction : Prop :=
  ∀ (s : State) (i : Instr), executes s i → step s = exec i (afterCountdown s)

/-- The countdown (R200): on every tick of a core that is not halted, before the fetch, each timer falls by one, one at zero
stays at zero, neither affects the other, whatever the fetch then finds. -/
def Obligations.TimersCountDownBeforeTheFetch : Prop :=
  ∀ s : State, s.fault = none → ∃ t : State, step s = fetchExecute t ∧
    t.dt.toNat = s.dt.toNat - 1 ∧ t.st.toNat = s.st.toNat - 1 ∧
    t = { s with dt := t.dt, st := t.st, blitReport := t.blitReport }

/-- A tick of a halted core answers the latched fault (R121 phase 0, R238; D30), and in every consistent state, which is
every state a run reaches, it changes nothing at all. -/
def Obligations.HaltedTickChangesNothing : Prop :=
  ∀ (s : State) (l : Latch), s.fault = some l →
    step s = .next { s with status := .boundsViolation l s.pc } ∧ (Consistent s → step s = .next s)

/-- A fetch with pc + 1 > 0xFFF, computed without wrap, takes FetchOutOfRange with pc as info, after the countdown (R122,
R64; D5, D34). -/
def Obligations.FetchOutOfRangeIsTaken : Prop :=
  ∀ s : State, s.fault = none → 0xFFF < s.pc.toNat + 1 →
    step s = .next (violated .fetchOutOfRange s.pc (afterCountdown s))

/-- A fetched word that decodes to nothing: pc + 2, status DecodeFailure with the word and the old pc, nothing else but the
countdown, no fault latched (R126, R236; C6, D4). -/
def Obligations.DecodeFailureAdvancesAndReports : Prop :=
  ∀ s : State, s.fault = none → s.pc.toNat + 1 ≤ 0xFFF → decodeWord (fetched s) = none →
    step s = .next { afterCountdown s with pc := s.pc + 2, status := .decodeFailure (fetched s) s.pc }

/-! ### Control transfer -/

/-- SE and SNE, both forms (R150 to R153): compare all eight bits, advance pc by four where the condition holds and by two
where it does not, change nothing else. -/
def Obligations.RegisterSkipsCompareAndAdvance : Prop :=
  ∀ (s : State) (x y : Reg) (kk : Byte),
    exec (.seByte x kk) s = .next { s with pc := if s.v[x.val] = kk then s.pc + 4 else s.pc + 2, status := .ok } ∧
    exec (.sneByte x kk) s = .next { s with pc := if s.v[x.val] ≠ kk then s.pc + 4 else s.pc + 2, status := .ok } ∧
    exec (.seReg x y) s =
      .next { s with pc := if s.v[x.val] = s.v[y.val] then s.pc + 4 else s.pc + 2, status := .ok } ∧
    exec (.sneReg x y) s =
      .next { s with pc := if s.v[x.val] ≠ s.v[y.val] then s.pc + 4 else s.pc + 2, status := .ok }

/-- JP addr (R141): pc is the embedded address, nothing else changes. -/
def Obligations.JumpSetsPc : Prop :=
  ∀ (s : State) (nnn : Addr12), exec (.jp nnn) s = .next { s with pc := nnn.setWidth 16, status := .ok }

/-- JP V0, addr (R143; the index V0 and the unmasked sum are G5, D14): pc is nnn + V0, at most 0x10FE. -/
def Obligations.IndexedJumpAddsV0 : Prop :=
  ∀ (s : State) (nnn : Addr12), ∃ t : State, exec (.jpV0 nnn) s = .next t ∧
    t.pc.toNat = nnn.toNat + s.v[0].toNat ∧ t.pc.toNat ≤ 0x10FE ∧ t = { s with pc := t.pc, status := .ok }

/-- CALL addr (R142): with an entry free it writes pc + 2 to stack[sp], increments sp and jumps; with sixteen held it is
StackOverflow with its own pc and changes nothing else (sixteen levels: C3, D7; no change: D5). -/
def Obligations.CallPushesOrOverflows : Prop :=
  ∀ (s : State) (nnn : Addr12),
    (s.sp.val < 16 → ∃ t : State, exec (.call nnn) s = .next t ∧ t.sp.val = s.sp.val + 1 ∧
      t.pc = nnn.setWidth 16 ∧
      (∀ k : Fin 16, t.stack[k.val] = if k.val = s.sp.val then s.pc + 2 else s.stack[k.val]) ∧
      t = { s with sp := t.sp, stack := t.stack, pc := t.pc, status := .ok }) ∧
    (s.sp.val = 16 → exec (.call nnn) s = .next (violated .stackOverflow s.pc s))

/-- RET (R140): with an entry held it decrements sp and jumps to the old top, which keeps its contents (D8); with none it is
StackUnderflow with its own pc and changes nothing else (D5, D7). -/
def Obligations.ReturnPopsOrUnderflows : Prop :=
  ∀ s : State,
    (∀ k : Fin 16, s.sp.val = k.val + 1 → ∃ t : State, exec .ret s = .next t ∧ t.sp.val = k.val ∧
      t.pc = s.stack[k.val] ∧ t = { s with sp := t.sp, pc := t.pc, status := .ok }) ∧
    (s.sp.val = 0 → exec .ret s = .next (violated .stackUnderflow s.pc s))

/-- A return from where a call led comes back to the instruction after the call, with sp as before the call, and only the
stack entry above sp may differ (R142, R140; D7, D8). -/
def Obligations.ReturnUndoesCall : Prop :=
  ∀ (s t u : State) (nnn : Addr12), s.sp.val < 16 → exec (.call nnn) s = .next t → exec .ret t = .next u →
    u.pc = s.pc + 2 ∧ u.sp = s.sp ∧ (∀ k : Fin 16, k.val ≠ s.sp.val → u.stack[k.val] = s.stack[k.val]) ∧
    u = { s with stack := u.stack, pc := s.pc + 2, status := .ok }

/-! ### Loads and the ALU -/

/-- LD Vx, byte; LD Vx, Vy; LD I, addr (R160, R162, R180): Vx or I is written (I is nnn, zero-extended), no other register,
no flag unless x = F, nothing else but pc and the status. -/
def Obligations.LoadsWriteTheirDestination : Prop :=
  ∀ (s : State) (x y : Reg) (kk : Byte) (nnn : Addr12),
    exec (.ldByte x kk) s = .next { s with v := s.v.set x.val kk, pc := s.pc + 2, status := .ok } ∧
    exec (.ldReg x y) s = .next { s with v := s.v.set x.val s.v[y.val], pc := s.pc + 2, status := .ok } ∧
    exec (.ldI nnn) s = .next { s with i := nnn.setWidth 16, pc := s.pc + 2, status := .ok }

/-- ADD Vx, byte (R161): the sum modulo 256 to Vx; VF and all else unchanged (D12). -/
def Obligations.AddImmediateWrapsWithoutFlag : Prop :=
  ∀ (s : State) (x : Reg) (kk : Byte), ∃ t : State, exec (.addByte x kk) s = .next t ∧
    t.v[x.val].toNat = (s.v[x.val].toNat + kk.toNat) % 256 ∧
    (∀ z : Reg, z ≠ x → t.v[z.val] = s.v[z.val]) ∧
    t = { s with v := t.v, pc := s.pc + 2, status := .ok }

/-- OR, AND, XOR (R163 to R165), bit by bit; VF unless x = F, and all else, unchanged (D11). -/
def Obligations.BitwiseOpsLeaveVF : Prop :=
  ∀ (s : State) (x y : Reg), ∃ t u w : State,
    exec (.orReg x y) s = .next t ∧ exec (.andReg x y) s = .next u ∧ exec (.xorReg x y) s = .next w ∧
    (∀ k < 8, t.v[x.val].getLsbD k = (s.v[x.val].getLsbD k || s.v[y.val].getLsbD k) ∧
      u.v[x.val].getLsbD k = (s.v[x.val].getLsbD k && s.v[y.val].getLsbD k) ∧
      w.v[x.val].getLsbD k = (s.v[x.val].getLsbD k ^^ s.v[y.val].getLsbD k)) ∧
    (∀ z : Reg, z ≠ x → t.v[z.val] = s.v[z.val] ∧ u.v[z.val] = s.v[z.val] ∧ w.v[z.val] = s.v[z.val]) ∧
    t = { s with v := t.v, pc := s.pc + 2, status := .ok } ∧
    u = { s with v := u.v, pc := s.pc + 2, status := .ok } ∧
    w = { s with v := w.v, pc := s.pc + 2, status := .ok }

/-- The arithmetic of R173 as integers: add with carry, subtract with no-borrow, and the two shifts of one register (in place
on Vx, y ignored: D10). The flag is VF for every destination but VF itself, where the result stays (R174; D9). -/
def Obligations.FlaggedArithmeticIsExact : Prop :=
  ∀ (s : State) (x y : Reg), ∃ a b r l : State,
    exec (.addReg x y) s = .next a ∧ exec (.sub x y) s = .next b ∧
    exec (.shr x y) s = .next r ∧ exec (.shl x y) s = .next l ∧
    (a.v[x.val].toNat = (s.v[x.val].toNat + s.v[y.val].toNat) % 256 ∧
      (x ≠ 15 → a.v[15] = if 0xFF < s.v[x.val].toNat + s.v[y.val].toNat then 1 else 0)) ∧
    ((b.v[x.val].toNat : Int) = ((s.v[x.val].toNat : Int) - s.v[y.val].toNat) % 256 ∧
      (x ≠ 15 → b.v[15] = if s.v[y.val].toNat ≤ s.v[x.val].toNat then 1 else 0)) ∧
    (r.v[x.val].toNat = s.v[x.val].toNat / 2 ∧ (x ≠ 15 → r.v[15].toNat = s.v[x.val].toNat % 2)) ∧
    (l.v[x.val].toNat = s.v[x.val].toNat * 2 % 256 ∧ (x ≠ 15 → l.v[15].toNat = s.v[x.val].toNat / 128))

/-- SUBN (R169; C5): minuend Vy, subtrahend Vx, result to Vx, VF 1 for no borrow; with x = F the difference stays (D9). -/
def Obligations.ReverseSubtractIsExact : Prop :=
  ∀ (s : State) (x y : Reg), ∃ t : State, exec (.subn x y) s = .next t ∧
    (t.v[x.val].toNat : Int) = ((s.v[y.val].toNat : Int) - s.v[x.val].toNat) % 256 ∧
    (x ≠ 15 → t.v[15] = if s.v[x.val].toNat ≤ s.v[y.val].toNat then 1 else 0) ∧
    (∀ z : Reg, z ≠ x → z ≠ 15 → t.v[z.val] = s.v[z.val]) ∧
    t = { s with v := t.v, pc := s.pc + 2, status := .ok }

/-- The frame of the five flag-producing ALU instructions, x = F included: of the registers only Vx and VF change, pc by two,
the status, nothing else (R166 to R170, R174; D9, D10). -/
def Obligations.FlaggedAluFrame : Prop :=
  ∀ (s : State) (x y : Reg), ∀ i ∈ [Instr.addReg x y, .sub x y, .shr x y, .subn x y, .shl x y],
    ∃ t : State, exec i s = .next t ∧ (∀ z : Reg, z ≠ x → z ≠ 15 → t.v[z.val] = s.v[z.val]) ∧
      t = { s with v := t.v, pc := s.pc + 2, status := .ok }

/-- RND (R171; G6, D22): Vx is the byte on the input AND kk; where the host's byte is not said it is some byte, whichever
the free value of log 1 is; nothing else of the hardware changes (log 1 for `rndDrawn`). -/
def Obligations.RandomLoadMasksTheInput : Prop :=
  ∀ (s : State) (x : Reg) (kk : Byte), ∃ (t : State) (b : Byte), exec (.rnd x kk) s = .next t ∧
    (∀ r, s.rndPort = some r → b = r) ∧ t.v[x.val] = b &&& kk ∧
    (∀ z : Reg, z ≠ x → t.v[z.val] = s.v[z.val]) ∧
    t = { s with v := t.v, pc := s.pc + 2, status := .ok, rndDrawn := t.rndDrawn }

/-! ### The index register and memory -/

/-- ADD I, Vx (R181): the sum modulo 65536, no flag, no fault whatever the sum (D13). -/
def Obligations.AddIndexWrapsWithoutFlag : Prop :=
  ∀ (s : State) (x : Reg), ∃ t : State, exec (.addI x) s = .next t ∧
    t.i.toNat = (s.i.toNat + s.v[x.val].toNat) % 65536 ∧ t = { s with i := t.i, pc := s.pc + 2, status := .ok }

/-- LD F, Vx (R182): I is the address of glyph Vx, five bytes a glyph from FONT_BASE (D15); a number above 15 is
GlyphIndexOutOfRange with Vx as info and changes nothing else (D16, D5). -/
def Obligations.FontLookupOrGlyphViolation : Prop :=
  ∀ (s : State) (x : Reg),
    (s.v[x.val].toNat ≤ 15 → exec (.ldF x) s =
      .next { s with i := BitVec.ofNat 16 (Config.fontBase + 5 * s.v[x.val].toNat), pc := s.pc + 2, status := .ok }) ∧
    (15 < s.v[x.val].toNat → exec (.ldF x) s =
      .next (violated .glyphIndexOutOfRange (s.v[x.val].setWidth 16) s))

/-- LD B, Vx (R183; G8, D21): the hundreds, tens and ones of Vx at I, I + 1, I + 2 and every other byte as before. -/
def Obligations.BcdUnpackStoresThreeDigits : Prop :=
  ∀ (s : State) (x : Reg), s.i.toNat + 2 ≤ 0xFFF → ∃ t : State, exec (.ldB x) s = .next t ∧
    (t.mem.read s.i.toNat).toNat = s.v[x.val].toNat / 100 ∧
    (t.mem.read (s.i.toNat + 1)).toNat = s.v[x.val].toNat / 10 % 10 ∧
    (t.mem.read (s.i.toNat + 2)).toNat = s.v[x.val].toNat % 10 ∧
    (∀ a, (a < s.i.toNat ∨ s.i.toNat + 2 < a) → t.mem.read a = s.mem.read a) ∧
    t = { s with mem := t.mem, pc := s.pc + 2, status := .ok }

/-- LD [I], Vx (R184): V0 to Vx inclusive at I on, every other byte as before, I unchanged (D18). -/
def Obligations.BulkStoreWritesTheBlock : Prop :=
  ∀ (s : State) (x : Reg), s.i.toNat + x.val ≤ 0xFFF → ∃ t : State, exec (.storeRegs x) s = .next t ∧
    (∀ j : Reg, j ≤ x → t.mem.read (s.i.toNat + j.val) = s.v[j.val]) ∧
    (∀ a, (a < s.i.toNat ∨ s.i.toNat + x.val < a) → t.mem.read a = s.mem.read a) ∧
    t = { s with mem := t.mem, pc := s.pc + 2, status := .ok }

/-- LD Vx, [I] (R185): V0 to Vx inclusive from I on, the registers above x, I and memory unchanged (D18). -/
def Obligations.BulkLoadFillsTheRegisters : Prop :=
  ∀ (s : State) (x : Reg), s.i.toNat + x.val ≤ 0xFFF → ∃ t : State, exec (.loadRegs x) s = .next t ∧
    (∀ j : Reg, t.v[j.val] = if j ≤ x then s.mem.read (s.i.toNat + j.val) else s.v[j.val]) ∧
    t = { s with v := t.v, pc := s.pc + 2, status := .ok }

/-- The four instructions that move several bytes check their highest address first: above 0xFFF it is MemIndexOutOfRange
with that address, modulo 65536, as info, and no byte, register or pixel changes (R68, R235; D5, D34). -/
def Obligations.BlockAboveMemoryIsAllOrNothing : Prop :=
  ∀ (s : State) (x y : Reg) (n : Nibble),
    (0xFFF < s.i.toNat + 2 →
      exec (.ldB x) s = .next (violated .memIndexOutOfRange (BitVec.ofNat 16 (s.i.toNat + 2)) s)) ∧
    (0xFFF < s.i.toNat + x.val →
      exec (.storeRegs x) s = .next (violated .memIndexOutOfRange (BitVec.ofNat 16 (s.i.toNat + x.val)) s) ∧
      exec (.loadRegs x) s = .next (violated .memIndexOutOfRange (BitVec.ofNat 16 (s.i.toNat + x.val)) s)) ∧
    (n ≠ 0 → 0xFFF < s.i.toNat + n.toNat - 1 →
      exec (.drw x y n) s = .next (violated .memIndexOutOfRange (BitVec.ofNat 16 (s.i.toNat + n.toNat - 1)) s))

/-- What a bulk store put into memory is what a bulk load takes from it: after LD [I], Vx then LD Vx, [I] with other register
contents in between, V0 to Vx are the stored values again (R72, R184, R185; D18). -/
def Obligations.BulkLoadReturnsTheStoredBlock : Prop :=
  ∀ (s t u w : State) (x : Reg), s.i.toNat + x.val ≤ 0xFFF → exec (.storeRegs x) s = .next t →
    u.mem = t.mem → u.i = t.i → exec (.loadRegs x) u = .next w →
    ∀ j : Reg, j ≤ x → w.v[j.val] = s.v[j.val]

/-- A store is seen by every later fetch of its bytes: after LD [I], Vx the word at I + j is Vj over Vj+1, big-endian, and in
every later state `u` in which memory is still as the store left it, a running core with pc there executes what that word
decodes to (R65, R75; D18, D27). -/
def Obligations.StoredInstructionIsFetched : Prop :=
  ∀ (s t u : State) (x : Reg) (j : Nat) (hj : j + 1 ≤ x.val) (i : Instr), s.i.toNat + x.val ≤ 0xFFF →
    exec (.storeRegs x) s = .next t → u.mem = t.mem → u.fault = none → u.pc.toNat = s.i.toNat + j →
    decodeWord (s.v[j]'(by have := x.isLt; omega) ++ s.v[j + 1]'(by have := x.isLt; omega)) = some i →
    step u = exec i (afterCountdown u)

/-! ### The display -/

/-- CLS (R190): every cell off; nothing else changes but pc and the status, the report included. -/
def Obligations.ClearTurnsEveryCellOff : Prop :=
  ∀ s : State, ∃ t : State, exec .cls s = .next t ∧ (∀ r c, t.fb.pixel r c = false) ∧
    t = { s with fb := t.fb, pc := s.pc + 2, status := .ok }

/-- DRW (R191 to R194; the wiring is G7, D19): the n rows from I, drawn at column Vx and row Vy with wrap, invert exactly
the cells they cover with a 1; VF is 1 if a covered cell was on, else 0; no other register, I and memory included, changes.
n = 0 draws nothing whatever I is. -/
def Obligations.DrawXorsTheSprite : Prop :=
  ∀ (s : State) (x y : Reg) (n : Nibble), (n = 0 ∨ s.i.toNat + n.toNat - 1 ≤ 0xFFF) →
    ∃ t : State, exec (.drw x y n) s = .next t ∧
      (∀ r c, (SpriteCovers s.mem s.i.toNat n.toNat s.v[x.val].toNat s.v[y.val].toNat r c →
          t.fb.pixel r c = !s.fb.pixel r c) ∧
        (¬ SpriteCovers s.mem s.i.toNat n.toNat s.v[x.val].toNat s.v[y.val].toNat r c →
          t.fb.pixel r c = s.fb.pixel r c)) ∧
      (t.v[15] = 0 ∨ t.v[15] = 1) ∧
      (t.v[15] = 1 ↔ ∃ r c, SpriteCovers s.mem s.i.toNat n.toNat s.v[x.val].toNat s.v[y.val].toNat r c ∧
        s.fb.pixel r c = true) ∧
      (∀ z : Reg, z ≠ 15 → t.v[z.val] = s.v[z.val]) ∧
      t = { s with v := t.v, fb := t.fb, blitReport := t.blitReport, pc := s.pc + 2, status := .ok }

/-- The blit report after DRW (R195): its collision is VF; it lists the cells of the 1 bits in loop order, each with its new
value (D20); no cell is listed twice; and the cells listed are exactly those the sprite covers with a 1. -/
def Obligations.DrawReportsTheChangedCells : Prop :=
  ∀ (s t : State) (x y : Reg) (n : Nibble), (n = 0 ∨ s.i.toNat + n.toNat - 1 ≤ 0xFFF) →
    exec (.drw x y n) s = .next t →
    (t.blitReport.collision = true ↔ t.v[15] = 1) ∧
    t.blitReport.changed =
      reportInLoopOrder s.mem s.i.toNat n.toNat s.v[x.val].toNat s.v[y.val].toNat t.fb ∧
    (t.blitReport.changed.map fun k => (k.row, k.col)).Nodup ∧
    ∀ k : ChangedCell, k ∈ t.blitReport.changed ↔
      SpriteCovers s.mem s.i.toNat n.toNat s.v[x.val].toNat s.v[y.val].toNat k.row k.col ∧
      k.on = t.fb.pixel k.row k.col

/-- Two identical draws restore the display, and the second collides iff the first turned a cell on (R197, derived there
from R192 and R193), for x and y other than F. -/
def Obligations.DrawTwiceRestoresTheDisplay : Prop :=
  ∀ (s t u : State) (x y : Reg) (n : Nibble), x ≠ 15 → y ≠ 15 → (n = 0 ∨ s.i.toNat + n.toNat - 1 ≤ 0xFFF) →
    exec (.drw x y n) s = .next t → exec (.drw x y n) t = .next u →
    u.fb = s.fb ∧ (u.v[15] = 1 ↔ ∃ r c, s.fb.pixel r c = false ∧ t.fb.pixel r c = true)

/-! ### Timers and keypad -/

/-- LD Vx, DT; LD DT, Vx; LD ST, Vx (R201 to R203): one copy each, nothing else. -/
def Obligations.TimerReadAndWrites : Prop :=
  ∀ (s : State) (x : Reg),
    exec (.ldVxDt x) s = .next { s with v := s.v.set x.val s.dt, pc := s.pc + 2, status := .ok } ∧
    exec (.ldDtVx x) s = .next { s with dt := s.v[x.val], pc := s.pc + 2, status := .ok } ∧
    exec (.ldStVx x) s = .next { s with st := s.v[x.val], pc := s.pc + 2, status := .ok }

/-- SKP and SKNP (R213, R214): skip on the flag of key Vx; a number above 15 is KeyIndexOutOfRange with Vx as info and
changes nothing else (D17, D5). -/
def Obligations.KeySkipsOrKeyViolation : Prop :=
  ∀ (s : State) (x : Reg),
    (∀ k : Key, s.v[x.val].toNat = k.val →
      exec (.skp x) s = .next { s with pc := if s.keys[k.val] = true then s.pc + 4 else s.pc + 2, status := .ok } ∧
      exec (.sknp x) s = .next { s with pc := if s.keys[k.val] = true then s.pc + 2 else s.pc + 4, status := .ok }) ∧
    (15 < s.v[x.val].toNat →
      exec (.skp x) s = .next (violated .keyIndexOutOfRange (s.v[x.val].setWidth 16) s) ∧
      exec (.sknp x) s = .next (violated .keyIndexOutOfRange (s.v[x.val].setWidth 16) s))

/-- LD Vx, K (R215): with a key recorded its code goes to Vx and pc advances; with none pc and the registers stay. The
record is not cleared. -/
def Obligations.KeyWaitStoresOrBlocks : Prop :=
  ∀ (s : State) (x : Reg),
    (∀ k : Key, s.curKey = some k →
      exec (.ldVxK x) s = .next { s with v := s.v.set x.val (BitVec.ofNat 8 k.val), pc := s.pc + 2, status := .ok }) ∧
    (s.curKey = none → exec (.ldVxK x) s = .next { s with status := .ok })

/-! ### The whole machine -/

/-- Every tick answers a next state: no state and no instruction ends a run of the model, and both error classes are states
(R127, R128, R230; log 2). -/
def Obligations.EveryTickAnswersANextState : Prop :=
  (∀ (i : Instr) (s : State), ∃ t, exec i s = .next t) ∧ ∀ s : State, ∃ t, step s = .next t

/-- Whatever instruction raises it, a bounds violation is precise: the tick leaves pc and every piece of state as the
countdown left them, and sets only the latch and the status (R238, R240; D5). -/
def Obligations.BoundsViolationIsPrecise : Prop :=
  ∀ (s t : State) (l : Latch), s.fault = none → step s = .next t → t.fault = some l →
    t = { afterCountdown s with fault := some l, status := .boundsViolation l s.pc }

/-- The latch is cleared only by reset or load: after any other move of the host it is as it was (R32, R238; D5). -/
def Obligations.LatchClearedOnlyByResetOrLoad : Prop :=
  ∀ (m : HostMove) (s t : State) (l : Latch), s.fault = some l → hostMove m s = .next t →
    t.fault = some l ∨ m = .reset ∨ ∃ bytes, m = .load bytes

/-- Every tick keeps the state consistent: the canonical memory, and the agreement of status and report with the latch. -/
def Obligations.StepKeepsConsistent : Prop :=
  ∀ s t : State, Consistent s → step s = .next t → Consistent t

/-- Every move of the host keeps the state consistent (R249). -/
def Obligations.HostMovesKeepConsistent : Prop :=
  ∀ (m : HostMove) (s t : State), Consistent s → hostMove m s = .next t → Consistent t

/-- Every tick keeps pc at most 0x10FE and every return address at most 0x1000 (R25 and R140, derived there). -/
def Obligations.StepKeepsPcBounded : Prop :=
  ∀ s t : State, PcBounded s → step s = .next t → PcBounded t

/-- Every move of the host keeps those bounds (R249): a run has host moves between its ticks (log 4). -/
def Obligations.HostMovesKeepPcBounded : Prop :=
  ∀ (m : HostMove) (s t : State), PcBounded s → hostMove m s = .next t → PcBounded t

/-- The state after reset meets both invariants. -/
def Obligations.ResetMeetsTheInvariants : Prop := Consistent State.reset ∧ PcBounded State.reset

/-- A tick never changes the key flags, the current-key record or what the host drives on the random input (R130, R210; the
input is log 1). -/
def Obligations.TickNeverChangesKeys : Prop :=
  ∀ s t : State, step s = .next t → t.keys = s.keys ∧ t.curKey = s.curKey ∧ t.rndPort = s.rndPort

/-- Only CLS and DRW write pixels, only CALL and RET move sp, only CALL writes the stack (R21, R30, R33, R36). -/
def Obligations.OnlyTheirInstructionsTouchDisplayAndStack : Prop :=
  ∀ s t : State, step s = .next t →
    (t.fb ≠ s.fb → executes s .cls ∨ ∃ x y n, executes s (.drw x y n)) ∧
    (t.sp ≠ s.sp → executes s .ret ∨ ∃ nnn, executes s (.call nnn)) ∧
    (t.stack ≠ s.stack → ∃ nnn, executes s (.call nnn))

/-- Only LD B, Vx and LD [I], Vx write memory, and only the bytes of their block (R62, R67). -/
def Obligations.OnlyStoresWriteMemory : Prop :=
  ∀ (s t : State) (a : Nat), step s = .next t → t.mem.read a ≠ s.mem.read a →
    s.i.toNat ≤ a ∧ a ≤ 0xFFF ∧
      ((∃ x, executes s (.ldB x) ∧ a ≤ s.i.toNat + 2) ∨ ∃ x : Reg, executes s (.storeRegs x) ∧ a ≤ s.i.toNat + x.val)

/-- VF is written as a flag by ADD Vx,Vy, SUB, SHR, SUBN, SHL and DRW alone; any other instruction that changes it names VF
as its destination, or is LD VF, [I] (R23, R26; D11, D12, D32). -/
def Obligations.OnlyFlagProducersWriteVFUnasked : Prop :=
  ∀ (i : Instr) (s t : State), exec i s = .next t → t.v[15] ≠ s.v[15] →
    (∃ x y, i = .addReg x y ∨ i = .sub x y ∨ i = .shr x y ∨ i = .subn x y ∨ i = .shl x y) ∨
    (∃ x y n, i = .drw x y n) ∨
    (∃ kk, i = .ldByte 15 kk ∨ i = .addByte 15 kk ∨ i = .rnd 15 kk) ∨
    (∃ y, i = .ldReg 15 y ∨ i = .orReg 15 y ∨ i = .andReg 15 y ∨ i = .xorReg 15 y) ∨
    i = .ldVxDt 15 ∨ i = .ldVxK 15 ∨ i = .loadRegs 15

/-- The random input matters to RND alone: a tick that executes anything else gives the same state, but for the input itself,
whatever byte the host offers with it (R128, R172; D22, log 1). -/
def Obligations.RandomInputMattersOnlyToRnd : Prop :=
  ∀ (s t : State) (b : Byte), (∀ x kk, ¬ executes s (.rnd x kk)) → step s = .next t →
    step (s.driveRnd b) = .next (t.driveRnd b)
end

