-- ==== Sys2Proof/Laws/Config.lean ====
section
/-! SUPPORT. How the parameters of 00_scope.md R7 hang together. -/

namespace Sys2Proof

/-- The addresses are 0 to `MEM_SIZE` - 1 (R60). -/
theorem Config.memTop_eq : Config.memTop = Config.memSize - 1 := rfl

/-- The font is `GLYPH_COUNT` glyphs of `GLYPH_STRIDE` bytes (R7, R31). -/
theorem Config.fontLen_eq : Config.fontLen = Config.glyphCount * Config.glyphStride := rfl

theorem Config.length_fontData : Config.fontData.length = Config.fontLen := rfl

/-- The font lies inside its region (R7; 20_memory.md R61). -/
theorem Config.font_in_region :
    Config.fontRegion.first ≤ Config.fontBase ∧ Config.fontBase + Config.fontLen ≤ Config.fontRegion.last + 1 := by decide

/-- The region of the font ends where programs start (R7; 20_memory.md R61). -/
theorem Config.programStart_eq : Config.programStart = Config.fontRegion.last + 1 := rfl

/-- An instruction word has 8 bits for each byte of `INSTR_WIDTH` (R7, R90). -/
theorem Config.instr_bits : Word = BitVec (8 * Config.instrWidth) := rfl

/-- A sprite row is one byte (R7, R192). -/
theorem Config.sprite_bits : Byte = BitVec Config.spriteWidth := rfl

end Sys2Proof
end

