-- ==== Sys2Proof/Laws/Display.lean ====
section
/-! SUPPORT. What the blit engine does, cell by cell (45_display.md R192 to R195). -/

namespace Sys2Proof.Machine

@[simp] theorem FrameBuffer.pixel_blank (r : Fin Config.height) (c : Fin Config.width) : FrameBuffer.blank.pixel r c = false := by
  simp [FrameBuffer.blank, FrameBuffer.pixel]

/-- A cell reads back what was written, and no other cell changes. -/
theorem FrameBuffer.pixel_setPixel (fb : FrameBuffer) (r r' : Fin Config.height) (c c' : Fin Config.width) (b : Bool) :
    (fb.setPixel r c b).pixel r' c' = if r' = r ∧ c' = c then b else fb.pixel r' c' := by
  simp only [FrameBuffer.setPixel, FrameBuffer.pixel, Vector.getElem_set, Fin.ext_iff]
  by_cases hr : r.val = r'.val
  · by_cases hc : c.val = c'.val
    · simp [hr, hc]
    · simp [hr, hc, Ne.symm hc]
  · simp [hr, Ne.symm hr]

/-- Two framebuffers with the same cells are the same. -/
theorem FrameBuffer.ext_pixel {fb fb' : FrameBuffer} (h : ∀ r c, fb.pixel r c = fb'.pixel r c) : fb = fb' := by
  apply Vector.ext
  intro r hr
  apply Vector.ext
  intro c hc
  exact h ⟨r, hr⟩ ⟨c, hc⟩

/-- One cell of a blit: where it lies and its sprite bit. -/
structure SpriteCell where
  row : Fin Config.height
  col : Fin Config.width
  bit : Bool

/-- The cells of one sprite row in loop order (R192). -/
def rowCells (x0 : Nat) (r : Fin Config.height) (row : Byte) : List SpriteCell :=
  (List.range 8).map fun i => ⟨r, blitColOf (x0 + i), row.getLsbD (7 - i)⟩

/-- The cells of a sprite in loop order (R192). -/
def spriteCells (x0 : Nat) : Nat → List Byte → List SpriteCell
  | _, [] => []
  | y, row :: rows => rowCells x0 (blitRowOf y) row ++ spriteCells x0 (y + 1) rows

/-- One step of the blit over a listed cell. -/
def blitCell (b : BlitState) (c : SpriteCell) : BlitState := blitBit b c.row c.col c.bit

theorem blitRow_eq (x0 : Nat) (r : Fin Config.height) (row : Byte) (b : BlitState) :
    blitRow x0 r row b = (rowCells x0 r row).foldl blitCell b := by
  simp [blitRow, rowCells, List.foldl_map, blitCell]

/-- The two loops are one pass over the sprite's cells. -/
theorem blitRows_eq (x0 y : Nat) (rows : List Byte) (b : BlitState) :
    blitRows x0 y rows b = (spriteCells x0 y rows).foldl blitCell b := by
  induction rows generalizing y b with
  | nil => rfl
  | cons row rows ih => rw [blitRows, ih, blitRow_eq, spriteCells, List.foldl_append]

/-- A cell of a sprite row is its row and one of its eight wrapped columns. -/
theorem mem_rowCells (x0 : Nat) (r : Fin Config.height) (row : Byte) (s : SpriteCell) :
    s ∈ rowCells x0 r row ↔ ∃ i < 8, s = ⟨r, blitColOf (x0 + i), row.getLsbD (7 - i)⟩ := by
  simp [rowCells, eq_comm]

/-- A cell of a sprite is bit i of sprite row j, wrapped (R192, R194). -/
theorem mem_spriteCells (x0 y : Nat) (rows : List Byte) (s : SpriteCell) :
    s ∈ spriteCells x0 y rows ↔ ∃ j, ∃ h : j < rows.length, ∃ i < 8,
      s = ⟨blitRowOf (y + j), blitColOf (x0 + i), rows[j].getLsbD (7 - i)⟩ := by
  induction rows generalizing y with
  | nil => simp [spriteCells]
  | cons row rows ih =>
    rw [spriteCells, List.mem_append, mem_rowCells, ih]
    constructor
    · rintro (⟨i, hi, rfl⟩ | ⟨j, hj, i, hi, rfl⟩)
      · exact ⟨0, by simp, i, hi, rfl⟩
      · exact ⟨j + 1, by simp [hj], i, hi, by simp [Nat.add_assoc, Nat.add_comm 1 j]⟩
    · rintro ⟨j, hj, i, hi, rfl⟩
      cases j with
      | zero => exact .inl ⟨i, hi, rfl⟩
      | succ j => exact .inr ⟨j, by simpa using hj, i, hi, by simp [Nat.add_assoc, Nat.add_comm 1 j]⟩

/-- The place of a sprite cell. -/
def SpriteCell.place (s : SpriteCell) : Fin Config.height × Fin Config.width := (s.row, s.col)

theorem rowCells_places (x0 : Nat) (r : Fin Config.height) (row : Byte) : ((rowCells x0 r row).map SpriteCell.place).Nodup := by
  have h : (rowCells x0 r row).map SpriteCell.place = (List.range 8).map fun i => (r, blitColOf (x0 + i)) := by
    simp [rowCells, SpriteCell.place]
  rw [h]
  refine List.Nodup.map_on (fun i hi j hj hij => ?_) List.nodup_range
  have := congrArg Fin.val (Prod.mk.inj hij).2
  simp only [blitColOf, Fin.ofNat, List.mem_range, Config.width] at this hi hj
  omega

/-- No two bits of one blit reach the same cell, since 8 < 64 and 15 < 32 (R192). -/
theorem spriteCells_places (x0 y : Nat) (rows : List Byte) (h : rows.length ≤ 32) :
    ((spriteCells x0 y rows).map SpriteCell.place).Nodup := by
  induction rows generalizing y with
  | nil => simp [spriteCells]
  | cons row rows ih =>
    simp only [List.length_cons] at h
    rw [spriteCells, List.map_append]
    refine (rowCells_places _ _ _).append (ih (y + 1) (by omega)) ?_
    intro p hp hq
    obtain ⟨s, hs, rfl⟩ := List.mem_map.1 hp
    obtain ⟨s', hs', he⟩ := List.mem_map.1 hq
    obtain ⟨i, -, rfl⟩ := (mem_rowCells _ _ _ _).1 hs
    obtain ⟨j, hj, i', -, rfl⟩ := (mem_spriteCells _ _ _ _).1 hs'
    have := congrArg Fin.val (Prod.mk.inj he).1
    simp only [blitRowOf, Fin.ofNat, Config.height] at this
    omega

/-- What a pass over cells at distinct places leaves: each listed cell XORed with its bit, a collision iff some listed
cell with bit 1 was on, and the list of the cells with bit 1 (R192, R193, R195). -/
theorem foldl_blitCell (cells : List SpriteCell) (hn : (cells.map SpriteCell.place).Nodup) (b : BlitState) :
    (∀ s ∈ cells, (cells.foldl blitCell b).fb.pixel s.row s.col = (b.fb.pixel s.row s.col ^^ s.bit)) ∧
    (∀ r c, (∀ s ∈ cells, s.place ≠ (r, c)) → (cells.foldl blitCell b).fb.pixel r c = b.fb.pixel r c) ∧
    ((cells.foldl blitCell b).collision = true ↔
      b.collision = true ∨ ∃ s ∈ cells, s.bit = true ∧ b.fb.pixel s.row s.col = true) ∧
    (cells.foldl blitCell b).changed =
      b.changed ++ (cells.filter SpriteCell.bit).map fun s => ⟨s.row, s.col, !b.fb.pixel s.row s.col⟩ := by
  induction cells generalizing b with
  | nil => simp
  | cons s cells ih =>
    rw [List.map_cons, List.nodup_cons] at hn
    obtain ⟨hs, hn⟩ := hn
    obtain ⟨h1, h2, h3, h4⟩ := ih hn (blitCell b s)
    have hne : ∀ t ∈ cells, t.place ≠ s.place := fun t ht he => hs (he ▸ List.mem_map_of_mem ht)
    have hkeep : ∀ r c, (r, c) ≠ s.place → (blitCell b s).fb.pixel r c = b.fb.pixel r c := by
      intro r c hrc
      have : ¬ (r = s.row ∧ c = s.col) := fun h => hrc (Prod.ext h.1 h.2)
      simp [blitCell, blitBit, FrameBuffer.pixel_setPixel, this]
    have hset : (blitCell b s).fb.pixel s.row s.col = (b.fb.pixel s.row s.col ^^ s.bit) := by
      simp [blitCell, blitBit, FrameBuffer.pixel_setPixel]
    refine ⟨?_, ?_, ?_, ?_⟩
    · intro t ht
      rcases List.mem_cons.1 ht with rfl | ht
      · rw [List.foldl_cons, h2 _ _ fun t ht => hne t ht, hset]
      · rw [List.foldl_cons, h1 t ht, hkeep _ _ (hne t ht)]
    · intro r c h
      rw [List.foldl_cons, h2 r c fun t ht => h t (by simp [ht]), hkeep r c (Ne.symm (h s (by simp)))]
    · rw [List.foldl_cons, h3]
      have hc : (blitCell b s).collision = (b.collision || (s.bit && b.fb.pixel s.row s.col)) := rfl
      constructor
      · rintro (h | ⟨t, ht, hb, hp⟩)
        · rw [hc, Bool.or_eq_true, Bool.and_eq_true] at h
          rcases h with h | h
          · exact .inl h
          · exact .inr ⟨s, by simp, h⟩
        · rw [hkeep _ _ (hne t ht)] at hp
          exact .inr ⟨t, by simp [ht], hb, hp⟩
      · rintro (h | ⟨t, ht, hb, hp⟩)
        · exact .inl (by simp [hc, h])
        · rcases List.mem_cons.1 ht with rfl | ht
          · exact .inl (by simp [hc, hb, hp])
          · exact .inr ⟨t, ht, hb, by rw [hkeep _ _ (hne t ht)]; exact hp⟩
    · have hmap : ((cells.filter SpriteCell.bit).map fun t => (⟨t.row, t.col, !(blitCell b s).fb.pixel t.row t.col⟩ :
          ChangedCell)) = (cells.filter SpriteCell.bit).map fun t => ⟨t.row, t.col, !b.fb.pixel t.row t.col⟩ := by
        apply List.map_congr_left
        intro t ht
        rw [hkeep _ _ (hne t (List.mem_filter.1 ht).1)]
      rw [List.foldl_cons, h4, hmap]
      cases hb : s.bit
      · simp [blitCell, blitBit, hb]
      · simp [blitCell, blitBit, hb]

/-- Whether a blit's sprite covers a cell with a bit that is 1: some bit i of some sprite row j lies there, wrapped. -/
def Covered (x0 y0 : Nat) (rows : List Byte) (r : Fin Config.height) (c : Fin Config.width) : Prop :=
  ∃ j, ∃ h : j < rows.length, ∃ i < 8,
    r.val = (y0 + j) % 32 ∧ c.val = (x0 + i) % 64 ∧ rows[j].getLsbD (7 - i) = true

theorem covered_iff (x0 y0 : Nat) (rows : List Byte) (r : Fin Config.height) (c : Fin Config.width) :
    Covered x0 y0 rows r c ↔ ∃ s ∈ spriteCells x0 y0 rows, s.row = r ∧ s.col = c ∧ s.bit = true := by
  constructor
  · rintro ⟨j, hj, i, hi, hr, hc, hb⟩
    exact ⟨_, (mem_spriteCells _ _ _ _).2 ⟨j, hj, i, hi, rfl⟩, Fin.ext hr.symm, Fin.ext hc.symm, hb⟩
  · rintro ⟨s, hs, rfl, rfl, hb⟩
    obtain ⟨j, hj, i, hi, rfl⟩ := (mem_spriteCells _ _ _ _).1 hs
    exact ⟨j, hj, i, hi, rfl, rfl, hb⟩

/-- Everything the blit does to the cells: a covered cell is inverted, any other is as before (R192, R194). -/
theorem blit_pixel (fb : FrameBuffer) (x0 y0 : Nat) (rows : List Byte) (h : rows.length ≤ 32) (r : Fin Config.height) (c : Fin Config.width) :
    ((Covered x0 y0 rows r c → (blit fb x0 y0 rows).fb.pixel r c = !fb.pixel r c)) ∧
      (¬ Covered x0 y0 rows r c → (blit fb x0 y0 rows).fb.pixel r c = fb.pixel r c) := by
  obtain ⟨h1, h2, -, -⟩ := foldl_blitCell _ (spriteCells_places x0 y0 rows h) ⟨fb, false, []⟩
  rw [covered_iff, blit, blitRows_eq]
  constructor
  · rintro ⟨s, hs, rfl, rfl, hb⟩
    rw [h1 s hs, hb, Bool.xor_true]
  · intro hn
    by_cases hp : ∃ s ∈ spriteCells x0 y0 rows, s.place = (r, c)
    · obtain ⟨s, hs, he⟩ := hp
      obtain ⟨rfl, rfl⟩ := Prod.mk.inj he
      have hb : s.bit = false := by
        cases hb : s.bit
        · rfl
        · exact absurd ⟨s, hs, rfl, rfl, hb⟩ hn
      rw [h1 s hs, hb, Bool.xor_false]
    · exact h2 r c fun s hs he => hp ⟨s, hs, he⟩

/-- The blit collides iff it turns a cell off (R193). -/
theorem blit_collision (fb : FrameBuffer) (x0 y0 : Nat) (rows : List Byte) (h : rows.length ≤ 32) :
    (blit fb x0 y0 rows).collision = true ↔ ∃ r c, Covered x0 y0 rows r c ∧ fb.pixel r c = true := by
  obtain ⟨-, -, h3, -⟩ := foldl_blitCell _ (spriteCells_places x0 y0 rows h) ⟨fb, false, []⟩
  rw [blit, blitRows_eq, h3]
  simp only [Bool.false_eq_true, false_or, covered_iff]
  constructor
  · rintro ⟨s, hs, hb, hp⟩
    exact ⟨s.row, s.col, ⟨s, hs, rfl, rfl, hb⟩, hp⟩
  · rintro ⟨r, c, ⟨s, hs, rfl, rfl, hb⟩, hp⟩
    exact ⟨s, hs, hb, hp⟩

/-- The report lists the covered cells with their new values, and no others (R195). -/
theorem blit_changed (fb : FrameBuffer) (x0 y0 : Nat) (rows : List Byte) (h : rows.length ≤ 32) (k : ChangedCell) :
    k ∈ (blit fb x0 y0 rows).changed ↔ Covered x0 y0 rows k.row k.col ∧ k.on = !fb.pixel k.row k.col := by
  obtain ⟨-, -, -, h4⟩ := foldl_blitCell _ (spriteCells_places x0 y0 rows h) ⟨fb, false, []⟩
  rw [blit, blitRows_eq, h4, covered_iff]
  simp only [List.nil_append, List.mem_map, List.mem_filter]
  constructor
  · rintro ⟨s, ⟨hs, hb⟩, rfl⟩
    exact ⟨⟨s, hs, rfl, rfl, hb⟩, rfl⟩
  · rintro ⟨⟨s, hs, hr, hc, hb⟩, ho⟩
    refine ⟨s, ⟨hs, hb⟩, ?_⟩
    rw [hr, hc, ← ho]

end Sys2Proof.Machine
end

