-- ==== Sys2Proof/Laws/Encoding.lean ====
section
/-! SUPPORT. The fields of a word of each format (30_encoding.md R92, R93): what the decoder's field functions read from the
words the encoder's format functions build. -/

namespace Sys2Proof

/-- The bits of a word of format ADDR. -/
theorem getLsbD_wordAddr (c : BitVec 4) (nnn : Addr12) (i : Nat) :
    (wordAddr c nnn).getLsbD i = if i < 12 then nnn.getLsbD i else c.getLsbD (i - 12) :=
  BitVec.getLsbD_append

/-- The bits of a word of format REGIMM or REG. -/
theorem getLsbD_wordRegImm (c : BitVec 4) (x : Reg) (kk : Byte) (i : Nat) :
    (wordRegImm c x kk).getLsbD i =
      if i < 8 then kk.getLsbD i else if i < 12 then (BitVec.ofFin x : BitVec 4).getLsbD (i - 8) else c.getLsbD (i - 12) := by
  refine (BitVec.getLsbD_append (x := c ++ (BitVec.ofFin x : BitVec 4)) (y := kk)).trans ?_
  rw [BitVec.getLsbD_append, Nat.sub_sub]
  split
  · rfl
  · congr 1
    simp only [eq_iff_iff]
    omega

/-- The bits of a word of format REGREG or REGREGN. -/
theorem getLsbD_wordRegReg (c : BitVec 4) (x y : Reg) (n : Nibble) (i : Nat) :
    (wordRegReg c x y n).getLsbD i =
      if i < 4 then n.getLsbD i else if i < 8 then (BitVec.ofFin y : BitVec 4).getLsbD (i - 4)
      else if i < 12 then (BitVec.ofFin x : BitVec 4).getLsbD (i - 8) else c.getLsbD (i - 12) := by
  refine (BitVec.getLsbD_append (x := c ++ (BitVec.ofFin x : BitVec 4) ++ (BitVec.ofFin y : BitVec 4)) (y := n)).trans ?_
  rw [BitVec.getLsbD_append, BitVec.getLsbD_append, Nat.sub_sub, Nat.sub_sub]
  split
  · rfl
  · congr 1
    · simp only [eq_iff_iff]
      omega
    · congr 1
      simp only [eq_iff_iff]
      omega

/-- The class nibble of a word (R92). -/
def classField (w : Word) : BitVec 4 := w.extractLsb' 12 4

/-- Four bits of a word, given one by one. -/
theorem extract_eq {k n : Nat} {w : Word} {b : BitVec n} (h : ∀ i < n, w.getLsbD (k + i) = b.getLsbD i) :
    w.extractLsb' k n = b := by
  apply BitVec.eq_of_getLsbD_eq
  intro i hi
  simp [hi, h i hi]

/-- A register field, given bit by bit. -/
theorem extract_toFin {k : Nat} {w : Word} {x : Reg}
    (h : ∀ i < 4, w.getLsbD (k + i) = (BitVec.ofFin x : BitVec 4).getLsbD i) : (w.extractLsb' k 4).toFin = x := by
  rw [extract_eq h]

@[simp] theorem class_wordAddr (c : BitVec 4) (nnn : Addr12) : classField (wordAddr c nnn) = c :=
  extract_eq fun i hi => by
    have h0 : ¬ 12 + i < 12 := by omega
    simp [getLsbD_wordAddr, h0]

@[simp] theorem nnn_wordAddr (c : BitVec 4) (nnn : Addr12) : nnnField (wordAddr c nnn) = nnn :=
  extract_eq fun i hi => by
    simp [getLsbD_wordAddr, hi]

@[simp] theorem class_wordRegImm (c : BitVec 4) (x : Reg) (kk : Byte) : classField (wordRegImm c x kk) = c :=
  extract_eq fun i hi => by
    have h0 : ¬ 12 + i < 8 := by omega
    have h1 : ¬ 12 + i < 12 := by omega
    simp [getLsbD_wordRegImm, h0, h1]

@[simp] theorem x_wordRegImm (c : BitVec 4) (x : Reg) (kk : Byte) : xField (wordRegImm c x kk) = x :=
  extract_toFin fun i hi => by
    have h0 : ¬ 8 + i < 8 := by omega
    have h1 : 8 + i < 12 := by omega
    simp [getLsbD_wordRegImm, h0, h1]

@[simp] theorem kk_wordRegImm (c : BitVec 4) (x : Reg) (kk : Byte) : kkField (wordRegImm c x kk) = kk :=
  extract_eq fun i hi => by
    simp [getLsbD_wordRegImm, hi]

@[simp] theorem class_wordRegReg (c : BitVec 4) (x y : Reg) (n : Nibble) : classField (wordRegReg c x y n) = c :=
  extract_eq fun i hi => by
    have h0 : ¬ 12 + i < 4 := by omega
    have h1 : ¬ 12 + i < 8 := by omega
    have h2 : ¬ 12 + i < 12 := by omega
    simp [getLsbD_wordRegReg, h0, h1, h2]

@[simp] theorem x_wordRegReg (c : BitVec 4) (x y : Reg) (n : Nibble) : xField (wordRegReg c x y n) = x :=
  extract_toFin fun i hi => by
    have h0 : ¬ 8 + i < 4 := by omega
    have h1 : ¬ 8 + i < 8 := by omega
    have h2 : 8 + i < 12 := by omega
    simp [getLsbD_wordRegReg, h0, h1, h2]

@[simp] theorem y_wordRegReg (c : BitVec 4) (x y : Reg) (n : Nibble) : yField (wordRegReg c x y n) = y :=
  extract_toFin fun i hi => by
    have h0 : ¬ 4 + i < 4 := by omega
    have h1 : 4 + i < 8 := by omega
    simp [getLsbD_wordRegReg, h0, h1]

@[simp] theorem n_wordRegReg (c : BitVec 4) (x y : Reg) (n : Nibble) : nField (wordRegReg c x y n) = n :=
  extract_eq fun i hi => by
    simp [getLsbD_wordRegReg, hi]

/-- A word laid out in memory order reads back big-endian (R63). -/
@[simp] theorem beWord_bytes (w : Word) : beWord (highByte w) (lowByte w) = w := by
  apply BitVec.eq_of_getLsbD_eq
  intro i hi
  refine BitVec.getLsbD_append.trans ?_
  simp only [highByte, lowByte, BitVec.getLsbD_extractLsb']
  split
  · next h => simp [h]
  · next h =>
    have h1 : 8 + (i - 8) = i := by omega
    have h2 : i - 8 < 8 := by omega
    simp [h1, h2]

/-! ### A word is made of its fields, and a mask tests fields -/

/-- A word is its class and its address field. -/
@[simp] theorem wordAddr_fields (w : Word) : wordAddr (classField w) (nnnField w) = w := by
  apply BitVec.eq_of_getLsbD_eq
  intro i hi
  rw [getLsbD_wordAddr]
  split
  · next h => simp [nnnField, h]
  · next h =>
    have h1 : 12 + (i - 12) = i := by omega
    have h2 : i - 12 < 4 := by omega
    simp [classField, h1, h2]

theorem ofFin_xField (w : Word) : (BitVec.ofFin (xField w) : BitVec 4) = w.extractLsb' 8 4 := rfl

theorem ofFin_yField (w : Word) : (BitVec.ofFin (yField w) : BitVec 4) = w.extractLsb' 4 4 := rfl

/-- A word is its class, x and kk. -/
@[simp] theorem wordRegImm_fields (w : Word) : wordRegImm (classField w) (xField w) (kkField w) = w := by
  apply BitVec.eq_of_getLsbD_eq
  intro i hi
  rw [getLsbD_wordRegImm, ofFin_xField]
  simp only [kkField, classField, BitVec.getLsbD_extractLsb']
  split_ifs with h1 h2
  · simp [h1]
  · have e : 8 + (i - 8) = i := by omega
    have : i - 8 < 4 := by omega
    simp [e, this]
  · have e : 12 + (i - 12) = i := by omega
    have : i - 12 < 4 := by omega
    simp [e, this]

/-- A word is its class, x, y and n. -/
@[simp] theorem wordRegReg_fields (w : Word) : wordRegReg (classField w) (xField w) (yField w) (nField w) = w := by
  apply BitVec.eq_of_getLsbD_eq
  intro i hi
  rw [getLsbD_wordRegReg, ofFin_xField, ofFin_yField]
  simp only [nField, classField, BitVec.getLsbD_extractLsb']
  split_ifs with h1 h2 h3
  · simp [h1]
  · have e : 4 + (i - 4) = i := by omega
    have : i - 4 < 4 := by omega
    simp [e, this]
  · have e : 8 + (i - 8) = i := by omega
    have : i - 8 < 4 := by omega
    simp [e, this]
  · have e : 12 + (i - 12) = i := by omega
    have : i - 12 < 4 := by omega
    simp [e, this]

theorem classField_and (w m : Word) : classField (w &&& m) = classField w &&& classField m :=
  BitVec.extractLsb'_and

theorem kkField_and (w m : Word) : kkField (w &&& m) = kkField w &&& kkField m :=
  BitVec.extractLsb'_and

theorem nField_and (w m : Word) : nField (w &&& m) = nField w &&& nField m :=
  BitVec.extractLsb'_and


/-- Selection by mask 0xF000 is a test of the class (R96). -/
theorem and_class_mask (w : Word) (c : BitVec 4) : w &&& 0xF000 = wordAddr c 0 ↔ classField w = c := by
  constructor
  · intro h
    have h1 := congrArg classField h
    rw [classField_and, class_wordAddr] at h1
    rw [← h1]
    exact (BitVec.and_allOnes).symm
  · rintro rfl
    apply BitVec.eq_of_getLsbD_eq
    intro i hi
    rw [getLsbD_wordAddr]
    interval_cases i <;> simp [classField]

/-- Selection by mask 0xF00F is a test of the class and n (R96). -/
theorem and_class_n_mask (w : Word) (c n : BitVec 4) :
    w &&& 0xF00F = wordRegReg c 0 0 n ↔ classField w = c ∧ nField w = n := by
  constructor
  · intro h
    have h1 := congrArg classField h
    have h2 := congrArg nField h
    rw [classField_and, class_wordRegReg] at h1
    rw [nField_and, n_wordRegReg] at h2
    exact ⟨(BitVec.and_allOnes).symm.trans h1, (BitVec.and_allOnes).symm.trans h2⟩
  · rintro ⟨rfl, rfl⟩
    apply BitVec.eq_of_getLsbD_eq
    intro i hi
    rw [getLsbD_wordRegReg]
    interval_cases i <;> simp [classField, nField]

/-- Selection by mask 0xF0FF is a test of the class and kk (R96). -/
theorem and_class_kk_mask (w : Word) (c : BitVec 4) (kk : Byte) :
    w &&& 0xF0FF = wordRegImm c 0 kk ↔ classField w = c ∧ kkField w = kk := by
  constructor
  · intro h
    have h1 := congrArg classField h
    have h2 := congrArg kkField h
    rw [classField_and, class_wordRegImm] at h1
    rw [kkField_and, kk_wordRegImm] at h2
    exact ⟨(BitVec.and_allOnes).symm.trans h1, (BitVec.and_allOnes).symm.trans h2⟩
  · rintro ⟨rfl, rfl⟩
    apply BitVec.eq_of_getLsbD_eq
    intro i hi
    rw [getLsbD_wordRegImm]
    interval_cases i <;> simp [classField, kkField]

end Sys2Proof
end

