-- ==== Sys2Proof/Laws/Memory.lean ====
section
/-! SUPPORT. The laws of memory: a read after a write, and that every memory operation keeps the canonical form. -/

namespace Sys2Proof.Machine

@[simp] theorem Mem.read_nil (a : Nat) : Mem.read [] a = Mem.unlisted a := rfl

theorem Mem.read_erase_other (m : Mem) {a k : Nat} (h : k ≠ a) : (m.erase a).read k = m.read k := by
  induction m with
  | nil => rfl
  | cons c m ih =>
    obtain ⟨k', b⟩ := c
    simp only [Mem.erase] at ih
    by_cases hk : k' = a
    · simp [Mem.erase, Mem.read, hk, Ne.symm h, ih]
    · simp [Mem.erase, Mem.read, hk, ih]

theorem Mem.read_erase_same (m : Mem) (a : Nat) : (m.erase a).read a = Mem.unlisted a := by
  induction m with
  | nil => rfl
  | cons c m ih =>
    obtain ⟨k', b⟩ := c
    simp only [Mem.erase] at ih
    by_cases hk : k' = a
    · simp [Mem.erase, hk, ih]
    · simp [Mem.erase, Mem.read, hk, ih]

theorem Mem.read_insert_other (m : Mem) {a k : Nat} (b : Byte) (h : k ≠ a) : (m.insert a b).read k = m.read k := by
  induction m with
  | nil => simp [Mem.insert, Mem.read, Ne.symm h]
  | cons c m ih =>
    obtain ⟨k', b'⟩ := c
    by_cases hk : a < k'
    · simp [Mem.insert, Mem.read, hk, Ne.symm h]
    · simp [Mem.insert, Mem.read, hk, ih]

theorem Mem.read_insert_same (m : Mem) (a : Nat) (b : Byte) (h : ∀ c ∈ m, c.1 ≠ a) : (m.insert a b).read a = b := by
  induction m with
  | nil => simp [Mem.insert, Mem.read]
  | cons c m ih =>
    obtain ⟨k', b'⟩ := c
    by_cases hk : a < k'
    · simp [Mem.insert, Mem.read, hk]
    · have hne : k' ≠ a := h (k', b') (by simp)
      simp [Mem.insert, Mem.read, hk, hne, ih fun c hc => h c (by simp [hc])]

/-- A byte stored at an address of the array reads back there, and no other address changes (R66, R67, R72). -/
theorem Mem.read_write (m : Mem) {a : Nat} (ha : a < Config.memSize) (b : Byte) (k : Nat) :
    (m.write a b).read k = if k = a then b else m.read k := by
  by_cases hk : k = a
  · subst hk
    by_cases hb : b = Mem.unlisted k
    · simp [Mem.write, ha, hb, Mem.read_erase_same]
    · simp only [Mem.write, ha, hb, if_true, if_false]
      exact Mem.read_insert_same _ _ _ (by simp [Mem.erase])
  · by_cases hb : b = Mem.unlisted a
    · simp [Mem.write, ha, hb, hk, Mem.read_erase_other]
    · simp [Mem.write, ha, hb, hk, Mem.read_insert_other, Mem.read_erase_other]

/-- A write outside the array changes nothing (R67). -/
theorem Mem.write_outside (m : Mem) {a : Nat} (ha : ¬ a < Config.memSize) (b : Byte) : m.write a b = m := by
  simp [Mem.write, ha]

/-- What a run of stores leaves: the stored bytes in the block, every other address as before (R65). -/
theorem Mem.read_writeList (bs : List Byte) (m : Mem) (a k : Nat) (h : a + bs.length ≤ Config.memSize) :
    (m.writeList a bs).read k = if a ≤ k then (bs[k - a]?).getD (m.read k) else m.read k := by
  induction bs generalizing m a with
  | nil => simp [Mem.writeList]
  | cons b bs ih =>
    simp only [List.length_cons] at h
    rw [Mem.writeList, ih _ _ (by omega), Mem.read_write _ (by omega)]
    by_cases hk : k = a
    · subst hk; simp
    · by_cases hlt : a ≤ k
      · obtain ⟨d, hd⟩ : ∃ d, k - a = d + 1 := ⟨k - a - 1, by omega⟩
        have hle : a + 1 ≤ k := by omega
        have hd' : k - (a + 1) = d := by omega
        simp [hk, hlt, hle, hd, hd']
      · have hle : ¬ a + 1 ≤ k := by omega
        simp [hk, hlt, hle]

theorem Mem.mem_insert (m : Mem) (a : Nat) (b : Byte) (c : Host.Cell) : c ∈ m.insert a b ↔ c = (a, b) ∨ c ∈ m := by
  induction m with
  | nil => simp [Mem.insert]
  | cons d m ih =>
    by_cases hk : a < d.1
    · simp [Mem.insert, hk]
    · simp only [Mem.insert, hk, if_false, List.mem_cons, ih]
      tauto

theorem Mem.insert_rising (m : Mem) (a : Nat) (b : Byte) (h : m.Pairwise fun c d => c.1 < d.1)
    (ha : ∀ c ∈ m, c.1 ≠ a) : (m.insert a b).Pairwise fun c d => c.1 < d.1 := by
  induction m with
  | nil => simp [Mem.insert]
  | cons d m ih =>
    obtain ⟨hd, hm⟩ := List.pairwise_cons.1 h
    have hne := ha d (by simp)
    by_cases hk : a < d.1
    · simp only [Mem.insert, hk, if_true]
      refine List.pairwise_cons.2 ⟨fun c hc => ?_, h⟩
      rcases List.mem_cons.1 hc with rfl | hc
      · exact hk
      · exact lt_trans hk (hd c hc)
    · simp only [Mem.insert, hk, if_false]
      refine List.pairwise_cons.2 ⟨fun c hc => ?_, ih hm fun c hc => ha c (by simp [hc])⟩
      rcases (Mem.mem_insert m a b c).1 hc with rfl | hc
      · show d.1 < a
        omega
      · exact hd c hc

/-- A store keeps the canonical form. -/
theorem Mem.wf_write {m : Mem} (h : m.wf) (a : Nat) (b : Byte) : (m.write a b).wf := by
  obtain ⟨hs, hc⟩ := h
  by_cases ha : a < Config.memSize
  · have hes : (m.erase a).Pairwise fun c d => c.1 < d.1 := hs.filter _
    have hec : ∀ c ∈ m.erase a, c.1 < Config.memSize ∧ c.2 ≠ Mem.unlisted c.1 := fun c hm =>
      hc c (List.mem_filter.1 hm).1
    by_cases hb : b = Mem.unlisted a
    · have heq : m.write a b = m.erase a := by simp [Mem.write, ha, hb]
      rw [heq]
      exact ⟨hes, hec⟩
    · have heq : m.write a b = (m.erase a).insert a b := by simp [Mem.write, ha, hb]
      rw [heq]
      refine ⟨Mem.insert_rising _ _ _ hes (by simp [Mem.erase]), fun c hm => ?_⟩
      rcases (Mem.mem_insert _ _ _ _).1 hm with rfl | hm
      · exact ⟨ha, hb⟩
      · exact hec c hm
  · rw [Mem.write_outside m ha]
    exact ⟨hs, hc⟩

/-- A run of stores keeps the canonical form. -/
theorem Mem.wf_writeList (bs : List Byte) {m : Mem} (h : m.wf) (a : Nat) : (m.writeList a bs).wf := by
  induction bs generalizing m a with
  | nil => exact h
  | cons b bs ih => exact ih (Mem.wf_write h a b) (a + 1)

/-- Memory at reset is in canonical form: nothing is listed. -/
theorem Mem.wf_reset : State.reset.mem.wf := by decide

@[simp] theorem Mem.length_readList (m : Mem) (a n : Nat) : (m.readList a n).length = n := by simp [Mem.readList]

theorem Mem.getElem_readList (m : Mem) (a n j : Nat) (h : j < (m.readList a n).length) :
    (m.readList a n)[j] = m.read (a + j) := by
  simp [Mem.readList]

end Sys2Proof.Machine
end

