-- ==== Sys2Proof/Laws/State.lean ====
section
/-! SUPPORT. One lemma per field per update of the state, so that no proof unfolds a record update. -/

namespace Sys2Proof.Machine

/-! ### The ranges of the fields, with the parameters of Config.lean as numbers -/

theorem Reg.val_lt (x : Reg) : x.val < 16 := x.isLt
theorem Key.val_lt (k : Key) : k.val < 16 := k.isLt
theorem State.pc_lt (s : State) : s.pc.toNat < 65536 := s.pc.isLt
theorem State.i_lt (s : State) : s.i.toNat < 65536 := s.i.isLt
theorem State.dt_lt (s : State) : s.dt.toNat < 256 := s.dt.isLt
theorem State.st_lt (s : State) : s.st.toNat < 256 := s.st.isLt
theorem State.sp_le (s : State) : s.sp.val ≤ 16 := Nat.le_of_lt_succ s.sp.isLt

/-! ### `State.setV` -/

@[simp] theorem State.setV_v (s : State) (x : Reg) (b : Byte) : (s.setV x b).v = s.v.set x.val b := rfl
@[simp] theorem State.setV_i (s : State) (x : Reg) (b : Byte) : (s.setV x b).i = s.i := rfl
@[simp] theorem State.setV_pc (s : State) (x : Reg) (b : Byte) : (s.setV x b).pc = s.pc := rfl
@[simp] theorem State.setV_dt (s : State) (x : Reg) (b : Byte) : (s.setV x b).dt = s.dt := rfl
@[simp] theorem State.setV_st (s : State) (x : Reg) (b : Byte) : (s.setV x b).st = s.st := rfl
@[simp] theorem State.setV_sp (s : State) (x : Reg) (b : Byte) : (s.setV x b).sp = s.sp := rfl
@[simp] theorem State.setV_stack (s : State) (x : Reg) (b : Byte) : (s.setV x b).stack = s.stack := rfl
@[simp] theorem State.setV_keys (s : State) (x : Reg) (b : Byte) : (s.setV x b).keys = s.keys := rfl
@[simp] theorem State.setV_curKey (s : State) (x : Reg) (b : Byte) : (s.setV x b).curKey = s.curKey := rfl
@[simp] theorem State.setV_fb (s : State) (x : Reg) (b : Byte) : (s.setV x b).fb = s.fb := rfl
@[simp] theorem State.setV_mem (s : State) (x : Reg) (b : Byte) : (s.setV x b).mem = s.mem := rfl
@[simp] theorem State.setV_fault (s : State) (x : Reg) (b : Byte) : (s.setV x b).fault = s.fault := rfl
@[simp] theorem State.setV_status (s : State) (x : Reg) (b : Byte) : (s.setV x b).status = s.status := rfl
@[simp] theorem State.setV_blitReport (s : State) (x : Reg) (b : Byte) : (s.setV x b).blitReport = s.blitReport := rfl
@[simp] theorem State.setV_rndPort (s : State) (x : Reg) (b : Byte) : (s.setV x b).rndPort = s.rndPort := rfl
@[simp] theorem State.setV_rndDrawn (s : State) (x : Reg) (b : Byte) : (s.setV x b).rndDrawn = s.rndDrawn := rfl

/-! ### `State.setI` -/

@[simp] theorem State.setI_v (s : State) (a : Word) : (s.setI a).v = s.v := rfl
@[simp] theorem State.setI_i (s : State) (a : Word) : (s.setI a).i = a := rfl
@[simp] theorem State.setI_pc (s : State) (a : Word) : (s.setI a).pc = s.pc := rfl
@[simp] theorem State.setI_dt (s : State) (a : Word) : (s.setI a).dt = s.dt := rfl
@[simp] theorem State.setI_st (s : State) (a : Word) : (s.setI a).st = s.st := rfl
@[simp] theorem State.setI_sp (s : State) (a : Word) : (s.setI a).sp = s.sp := rfl
@[simp] theorem State.setI_stack (s : State) (a : Word) : (s.setI a).stack = s.stack := rfl
@[simp] theorem State.setI_keys (s : State) (a : Word) : (s.setI a).keys = s.keys := rfl
@[simp] theorem State.setI_curKey (s : State) (a : Word) : (s.setI a).curKey = s.curKey := rfl
@[simp] theorem State.setI_fb (s : State) (a : Word) : (s.setI a).fb = s.fb := rfl
@[simp] theorem State.setI_mem (s : State) (a : Word) : (s.setI a).mem = s.mem := rfl
@[simp] theorem State.setI_fault (s : State) (a : Word) : (s.setI a).fault = s.fault := rfl
@[simp] theorem State.setI_status (s : State) (a : Word) : (s.setI a).status = s.status := rfl
@[simp] theorem State.setI_blitReport (s : State) (a : Word) : (s.setI a).blitReport = s.blitReport := rfl
@[simp] theorem State.setI_rndPort (s : State) (a : Word) : (s.setI a).rndPort = s.rndPort := rfl
@[simp] theorem State.setI_rndDrawn (s : State) (a : Word) : (s.setI a).rndDrawn = s.rndDrawn := rfl

/-! ### `State.setDt` -/

@[simp] theorem State.setDt_v (s : State) (b : Byte) : (s.setDt b).v = s.v := rfl
@[simp] theorem State.setDt_i (s : State) (b : Byte) : (s.setDt b).i = s.i := rfl
@[simp] theorem State.setDt_pc (s : State) (b : Byte) : (s.setDt b).pc = s.pc := rfl
@[simp] theorem State.setDt_dt (s : State) (b : Byte) : (s.setDt b).dt = b := rfl
@[simp] theorem State.setDt_st (s : State) (b : Byte) : (s.setDt b).st = s.st := rfl
@[simp] theorem State.setDt_sp (s : State) (b : Byte) : (s.setDt b).sp = s.sp := rfl
@[simp] theorem State.setDt_stack (s : State) (b : Byte) : (s.setDt b).stack = s.stack := rfl
@[simp] theorem State.setDt_keys (s : State) (b : Byte) : (s.setDt b).keys = s.keys := rfl
@[simp] theorem State.setDt_curKey (s : State) (b : Byte) : (s.setDt b).curKey = s.curKey := rfl
@[simp] theorem State.setDt_fb (s : State) (b : Byte) : (s.setDt b).fb = s.fb := rfl
@[simp] theorem State.setDt_mem (s : State) (b : Byte) : (s.setDt b).mem = s.mem := rfl
@[simp] theorem State.setDt_fault (s : State) (b : Byte) : (s.setDt b).fault = s.fault := rfl
@[simp] theorem State.setDt_status (s : State) (b : Byte) : (s.setDt b).status = s.status := rfl
@[simp] theorem State.setDt_blitReport (s : State) (b : Byte) : (s.setDt b).blitReport = s.blitReport := rfl
@[simp] theorem State.setDt_rndPort (s : State) (b : Byte) : (s.setDt b).rndPort = s.rndPort := rfl
@[simp] theorem State.setDt_rndDrawn (s : State) (b : Byte) : (s.setDt b).rndDrawn = s.rndDrawn := rfl

/-! ### `State.setSt` -/

@[simp] theorem State.setSt_v (s : State) (b : Byte) : (s.setSt b).v = s.v := rfl
@[simp] theorem State.setSt_i (s : State) (b : Byte) : (s.setSt b).i = s.i := rfl
@[simp] theorem State.setSt_pc (s : State) (b : Byte) : (s.setSt b).pc = s.pc := rfl
@[simp] theorem State.setSt_dt (s : State) (b : Byte) : (s.setSt b).dt = s.dt := rfl
@[simp] theorem State.setSt_st (s : State) (b : Byte) : (s.setSt b).st = b := rfl
@[simp] theorem State.setSt_sp (s : State) (b : Byte) : (s.setSt b).sp = s.sp := rfl
@[simp] theorem State.setSt_stack (s : State) (b : Byte) : (s.setSt b).stack = s.stack := rfl
@[simp] theorem State.setSt_keys (s : State) (b : Byte) : (s.setSt b).keys = s.keys := rfl
@[simp] theorem State.setSt_curKey (s : State) (b : Byte) : (s.setSt b).curKey = s.curKey := rfl
@[simp] theorem State.setSt_fb (s : State) (b : Byte) : (s.setSt b).fb = s.fb := rfl
@[simp] theorem State.setSt_mem (s : State) (b : Byte) : (s.setSt b).mem = s.mem := rfl
@[simp] theorem State.setSt_fault (s : State) (b : Byte) : (s.setSt b).fault = s.fault := rfl
@[simp] theorem State.setSt_status (s : State) (b : Byte) : (s.setSt b).status = s.status := rfl
@[simp] theorem State.setSt_blitReport (s : State) (b : Byte) : (s.setSt b).blitReport = s.blitReport := rfl
@[simp] theorem State.setSt_rndPort (s : State) (b : Byte) : (s.setSt b).rndPort = s.rndPort := rfl
@[simp] theorem State.setSt_rndDrawn (s : State) (b : Byte) : (s.setSt b).rndDrawn = s.rndDrawn := rfl

/-! ### `State.storeBytes` -/

@[simp] theorem State.storeBytes_v (s : State) (a : Nat) (bs : List Byte) : (s.storeBytes a bs).v = s.v := rfl
@[simp] theorem State.storeBytes_i (s : State) (a : Nat) (bs : List Byte) : (s.storeBytes a bs).i = s.i := rfl
@[simp] theorem State.storeBytes_pc (s : State) (a : Nat) (bs : List Byte) : (s.storeBytes a bs).pc = s.pc := rfl
@[simp] theorem State.storeBytes_dt (s : State) (a : Nat) (bs : List Byte) : (s.storeBytes a bs).dt = s.dt := rfl
@[simp] theorem State.storeBytes_st (s : State) (a : Nat) (bs : List Byte) : (s.storeBytes a bs).st = s.st := rfl
@[simp] theorem State.storeBytes_sp (s : State) (a : Nat) (bs : List Byte) : (s.storeBytes a bs).sp = s.sp := rfl
@[simp] theorem State.storeBytes_stack (s : State) (a : Nat) (bs : List Byte) : (s.storeBytes a bs).stack = s.stack := rfl
@[simp] theorem State.storeBytes_keys (s : State) (a : Nat) (bs : List Byte) : (s.storeBytes a bs).keys = s.keys := rfl
@[simp] theorem State.storeBytes_curKey (s : State) (a : Nat) (bs : List Byte) : (s.storeBytes a bs).curKey = s.curKey := rfl
@[simp] theorem State.storeBytes_fb (s : State) (a : Nat) (bs : List Byte) : (s.storeBytes a bs).fb = s.fb := rfl
@[simp] theorem State.storeBytes_mem (s : State) (a : Nat) (bs : List Byte) : (s.storeBytes a bs).mem = s.mem.writeList a bs := rfl
@[simp] theorem State.storeBytes_fault (s : State) (a : Nat) (bs : List Byte) : (s.storeBytes a bs).fault = s.fault := rfl
@[simp] theorem State.storeBytes_status (s : State) (a : Nat) (bs : List Byte) : (s.storeBytes a bs).status = s.status := rfl
@[simp] theorem State.storeBytes_blitReport (s : State) (a : Nat) (bs : List Byte) : (s.storeBytes a bs).blitReport = s.blitReport := rfl
@[simp] theorem State.storeBytes_rndPort (s : State) (a : Nat) (bs : List Byte) : (s.storeBytes a bs).rndPort = s.rndPort := rfl
@[simp] theorem State.storeBytes_rndDrawn (s : State) (a : Nat) (bs : List Byte) : (s.storeBytes a bs).rndDrawn = s.rndDrawn := rfl

/-! ### `State.fillRegs` -/

@[simp] theorem State.fillRegs_v (s : State) (x : Reg) (a : Nat) : (s.fillRegs x a).v = Vector.ofFn fun j => if j ≤ x then s.mem.read (a + j.val) else s.v[j.val] := rfl
@[simp] theorem State.fillRegs_i (s : State) (x : Reg) (a : Nat) : (s.fillRegs x a).i = s.i := by dsimp only [State.fillRegs]
@[simp] theorem State.fillRegs_pc (s : State) (x : Reg) (a : Nat) : (s.fillRegs x a).pc = s.pc := by dsimp only [State.fillRegs]
@[simp] theorem State.fillRegs_dt (s : State) (x : Reg) (a : Nat) : (s.fillRegs x a).dt = s.dt := by dsimp only [State.fillRegs]
@[simp] theorem State.fillRegs_st (s : State) (x : Reg) (a : Nat) : (s.fillRegs x a).st = s.st := by dsimp only [State.fillRegs]
@[simp] theorem State.fillRegs_sp (s : State) (x : Reg) (a : Nat) : (s.fillRegs x a).sp = s.sp := by dsimp only [State.fillRegs]
@[simp] theorem State.fillRegs_stack (s : State) (x : Reg) (a : Nat) : (s.fillRegs x a).stack = s.stack := by dsimp only [State.fillRegs]
@[simp] theorem State.fillRegs_keys (s : State) (x : Reg) (a : Nat) : (s.fillRegs x a).keys = s.keys := by dsimp only [State.fillRegs]
@[simp] theorem State.fillRegs_curKey (s : State) (x : Reg) (a : Nat) : (s.fillRegs x a).curKey = s.curKey := by dsimp only [State.fillRegs]
@[simp] theorem State.fillRegs_fb (s : State) (x : Reg) (a : Nat) : (s.fillRegs x a).fb = s.fb := by dsimp only [State.fillRegs]
@[simp] theorem State.fillRegs_mem (s : State) (x : Reg) (a : Nat) : (s.fillRegs x a).mem = s.mem := by dsimp only [State.fillRegs]
@[simp] theorem State.fillRegs_fault (s : State) (x : Reg) (a : Nat) : (s.fillRegs x a).fault = s.fault := by dsimp only [State.fillRegs]
@[simp] theorem State.fillRegs_status (s : State) (x : Reg) (a : Nat) : (s.fillRegs x a).status = s.status := by dsimp only [State.fillRegs]
@[simp] theorem State.fillRegs_blitReport (s : State) (x : Reg) (a : Nat) : (s.fillRegs x a).blitReport = s.blitReport := by dsimp only [State.fillRegs]
@[simp] theorem State.fillRegs_rndPort (s : State) (x : Reg) (a : Nat) : (s.fillRegs x a).rndPort = s.rndPort := by dsimp only [State.fillRegs]
@[simp] theorem State.fillRegs_rndDrawn (s : State) (x : Reg) (a : Nat) : (s.fillRegs x a).rndDrawn = s.rndDrawn := by dsimp only [State.fillRegs]

/-! ### `State.sampled` -/

@[simp] theorem State.sampled_v (s : State) : (s.sampled).v = s.v := rfl
@[simp] theorem State.sampled_i (s : State) : (s.sampled).i = s.i := rfl
@[simp] theorem State.sampled_pc (s : State) : (s.sampled).pc = s.pc := rfl
@[simp] theorem State.sampled_dt (s : State) : (s.sampled).dt = s.dt := rfl
@[simp] theorem State.sampled_st (s : State) : (s.sampled).st = s.st := rfl
@[simp] theorem State.sampled_sp (s : State) : (s.sampled).sp = s.sp := rfl
@[simp] theorem State.sampled_stack (s : State) : (s.sampled).stack = s.stack := rfl
@[simp] theorem State.sampled_keys (s : State) : (s.sampled).keys = s.keys := rfl
@[simp] theorem State.sampled_curKey (s : State) : (s.sampled).curKey = s.curKey := rfl
@[simp] theorem State.sampled_fb (s : State) : (s.sampled).fb = s.fb := rfl
@[simp] theorem State.sampled_mem (s : State) : (s.sampled).mem = s.mem := rfl
@[simp] theorem State.sampled_fault (s : State) : (s.sampled).fault = s.fault := rfl
@[simp] theorem State.sampled_status (s : State) : (s.sampled).status = s.status := rfl
@[simp] theorem State.sampled_blitReport (s : State) : (s.sampled).blitReport = s.blitReport := rfl
@[simp] theorem State.sampled_rndPort (s : State) : (s.sampled).rndPort = s.rndPort := rfl
@[simp] theorem State.sampled_rndDrawn (s : State) : (s.sampled).rndDrawn = s.rndDrawn + 1 := rfl

/-! ### `State.setFb` -/

@[simp] theorem State.setFb_v (s : State) (fb : FrameBuffer) : (s.setFb fb).v = s.v := rfl
@[simp] theorem State.setFb_i (s : State) (fb : FrameBuffer) : (s.setFb fb).i = s.i := rfl
@[simp] theorem State.setFb_pc (s : State) (fb : FrameBuffer) : (s.setFb fb).pc = s.pc := rfl
@[simp] theorem State.setFb_dt (s : State) (fb : FrameBuffer) : (s.setFb fb).dt = s.dt := rfl
@[simp] theorem State.setFb_st (s : State) (fb : FrameBuffer) : (s.setFb fb).st = s.st := rfl
@[simp] theorem State.setFb_sp (s : State) (fb : FrameBuffer) : (s.setFb fb).sp = s.sp := rfl
@[simp] theorem State.setFb_stack (s : State) (fb : FrameBuffer) : (s.setFb fb).stack = s.stack := rfl
@[simp] theorem State.setFb_keys (s : State) (fb : FrameBuffer) : (s.setFb fb).keys = s.keys := rfl
@[simp] theorem State.setFb_curKey (s : State) (fb : FrameBuffer) : (s.setFb fb).curKey = s.curKey := rfl
@[simp] theorem State.setFb_fb (s : State) (fb : FrameBuffer) : (s.setFb fb).fb = fb := rfl
@[simp] theorem State.setFb_mem (s : State) (fb : FrameBuffer) : (s.setFb fb).mem = s.mem := rfl
@[simp] theorem State.setFb_fault (s : State) (fb : FrameBuffer) : (s.setFb fb).fault = s.fault := rfl
@[simp] theorem State.setFb_status (s : State) (fb : FrameBuffer) : (s.setFb fb).status = s.status := rfl
@[simp] theorem State.setFb_blitReport (s : State) (fb : FrameBuffer) : (s.setFb fb).blitReport = s.blitReport := rfl
@[simp] theorem State.setFb_rndPort (s : State) (fb : FrameBuffer) : (s.setFb fb).rndPort = s.rndPort := rfl
@[simp] theorem State.setFb_rndDrawn (s : State) (fb : FrameBuffer) : (s.setFb fb).rndDrawn = s.rndDrawn := rfl

/-! ### `State.setReport` -/

@[simp] theorem State.setReport_v (s : State) (r : BlitReport) : (s.setReport r).v = s.v := rfl
@[simp] theorem State.setReport_i (s : State) (r : BlitReport) : (s.setReport r).i = s.i := rfl
@[simp] theorem State.setReport_pc (s : State) (r : BlitReport) : (s.setReport r).pc = s.pc := rfl
@[simp] theorem State.setReport_dt (s : State) (r : BlitReport) : (s.setReport r).dt = s.dt := rfl
@[simp] theorem State.setReport_st (s : State) (r : BlitReport) : (s.setReport r).st = s.st := rfl
@[simp] theorem State.setReport_sp (s : State) (r : BlitReport) : (s.setReport r).sp = s.sp := rfl
@[simp] theorem State.setReport_stack (s : State) (r : BlitReport) : (s.setReport r).stack = s.stack := rfl
@[simp] theorem State.setReport_keys (s : State) (r : BlitReport) : (s.setReport r).keys = s.keys := rfl
@[simp] theorem State.setReport_curKey (s : State) (r : BlitReport) : (s.setReport r).curKey = s.curKey := rfl
@[simp] theorem State.setReport_fb (s : State) (r : BlitReport) : (s.setReport r).fb = s.fb := rfl
@[simp] theorem State.setReport_mem (s : State) (r : BlitReport) : (s.setReport r).mem = s.mem := rfl
@[simp] theorem State.setReport_fault (s : State) (r : BlitReport) : (s.setReport r).fault = s.fault := rfl
@[simp] theorem State.setReport_status (s : State) (r : BlitReport) : (s.setReport r).status = s.status := rfl
@[simp] theorem State.setReport_blitReport (s : State) (r : BlitReport) : (s.setReport r).blitReport = r := rfl
@[simp] theorem State.setReport_rndPort (s : State) (r : BlitReport) : (s.setReport r).rndPort = s.rndPort := rfl
@[simp] theorem State.setReport_rndDrawn (s : State) (r : BlitReport) : (s.setReport r).rndDrawn = s.rndDrawn := rfl

/-! ### `State.driveRnd` -/

@[simp] theorem State.driveRnd_v (s : State) (b : Byte) : (s.driveRnd b).v = s.v := rfl
@[simp] theorem State.driveRnd_i (s : State) (b : Byte) : (s.driveRnd b).i = s.i := rfl
@[simp] theorem State.driveRnd_pc (s : State) (b : Byte) : (s.driveRnd b).pc = s.pc := rfl
@[simp] theorem State.driveRnd_dt (s : State) (b : Byte) : (s.driveRnd b).dt = s.dt := rfl
@[simp] theorem State.driveRnd_st (s : State) (b : Byte) : (s.driveRnd b).st = s.st := rfl
@[simp] theorem State.driveRnd_sp (s : State) (b : Byte) : (s.driveRnd b).sp = s.sp := rfl
@[simp] theorem State.driveRnd_stack (s : State) (b : Byte) : (s.driveRnd b).stack = s.stack := rfl
@[simp] theorem State.driveRnd_keys (s : State) (b : Byte) : (s.driveRnd b).keys = s.keys := rfl
@[simp] theorem State.driveRnd_curKey (s : State) (b : Byte) : (s.driveRnd b).curKey = s.curKey := rfl
@[simp] theorem State.driveRnd_fb (s : State) (b : Byte) : (s.driveRnd b).fb = s.fb := rfl
@[simp] theorem State.driveRnd_mem (s : State) (b : Byte) : (s.driveRnd b).mem = s.mem := rfl
@[simp] theorem State.driveRnd_fault (s : State) (b : Byte) : (s.driveRnd b).fault = s.fault := rfl
@[simp] theorem State.driveRnd_status (s : State) (b : Byte) : (s.driveRnd b).status = s.status := rfl
@[simp] theorem State.driveRnd_blitReport (s : State) (b : Byte) : (s.driveRnd b).blitReport = s.blitReport := rfl
@[simp] theorem State.driveRnd_rndPort (s : State) (b : Byte) : (s.driveRnd b).rndPort = some b := rfl
@[simp] theorem State.driveRnd_rndDrawn (s : State) (b : Byte) : (s.driveRnd b).rndDrawn = s.rndDrawn := rfl

/-! ### `State.keyDown` -/

@[simp] theorem State.keyDown_v (s : State) (k : Key) : (s.keyDown k).v = s.v := rfl
@[simp] theorem State.keyDown_i (s : State) (k : Key) : (s.keyDown k).i = s.i := rfl
@[simp] theorem State.keyDown_pc (s : State) (k : Key) : (s.keyDown k).pc = s.pc := rfl
@[simp] theorem State.keyDown_dt (s : State) (k : Key) : (s.keyDown k).dt = s.dt := rfl
@[simp] theorem State.keyDown_st (s : State) (k : Key) : (s.keyDown k).st = s.st := rfl
@[simp] theorem State.keyDown_sp (s : State) (k : Key) : (s.keyDown k).sp = s.sp := rfl
@[simp] theorem State.keyDown_stack (s : State) (k : Key) : (s.keyDown k).stack = s.stack := rfl
@[simp] theorem State.keyDown_keys (s : State) (k : Key) : (s.keyDown k).keys = s.keys.set k.val true := rfl
@[simp] theorem State.keyDown_curKey (s : State) (k : Key) : (s.keyDown k).curKey = some k := rfl
@[simp] theorem State.keyDown_fb (s : State) (k : Key) : (s.keyDown k).fb = s.fb := rfl
@[simp] theorem State.keyDown_mem (s : State) (k : Key) : (s.keyDown k).mem = s.mem := rfl
@[simp] theorem State.keyDown_fault (s : State) (k : Key) : (s.keyDown k).fault = s.fault := rfl
@[simp] theorem State.keyDown_status (s : State) (k : Key) : (s.keyDown k).status = s.status := rfl
@[simp] theorem State.keyDown_blitReport (s : State) (k : Key) : (s.keyDown k).blitReport = s.blitReport := rfl
@[simp] theorem State.keyDown_rndPort (s : State) (k : Key) : (s.keyDown k).rndPort = s.rndPort := rfl
@[simp] theorem State.keyDown_rndDrawn (s : State) (k : Key) : (s.keyDown k).rndDrawn = s.rndDrawn := rfl

/-! ### `State.keyUp` -/

@[simp] theorem State.keyUp_v (s : State) (k : Key) : (s.keyUp k).v = s.v := rfl
@[simp] theorem State.keyUp_i (s : State) (k : Key) : (s.keyUp k).i = s.i := rfl
@[simp] theorem State.keyUp_pc (s : State) (k : Key) : (s.keyUp k).pc = s.pc := rfl
@[simp] theorem State.keyUp_dt (s : State) (k : Key) : (s.keyUp k).dt = s.dt := rfl
@[simp] theorem State.keyUp_st (s : State) (k : Key) : (s.keyUp k).st = s.st := rfl
@[simp] theorem State.keyUp_sp (s : State) (k : Key) : (s.keyUp k).sp = s.sp := rfl
@[simp] theorem State.keyUp_stack (s : State) (k : Key) : (s.keyUp k).stack = s.stack := rfl
@[simp] theorem State.keyUp_keys (s : State) (k : Key) : (s.keyUp k).keys = s.keys.set k.val false := rfl
@[simp] theorem State.keyUp_curKey (s : State) (k : Key) : (s.keyUp k).curKey = if s.curKey = some k then none else s.curKey := rfl
@[simp] theorem State.keyUp_fb (s : State) (k : Key) : (s.keyUp k).fb = s.fb := rfl
@[simp] theorem State.keyUp_mem (s : State) (k : Key) : (s.keyUp k).mem = s.mem := rfl
@[simp] theorem State.keyUp_fault (s : State) (k : Key) : (s.keyUp k).fault = s.fault := rfl
@[simp] theorem State.keyUp_status (s : State) (k : Key) : (s.keyUp k).status = s.status := rfl
@[simp] theorem State.keyUp_blitReport (s : State) (k : Key) : (s.keyUp k).blitReport = s.blitReport := rfl
@[simp] theorem State.keyUp_rndPort (s : State) (k : Key) : (s.keyUp k).rndPort = s.rndPort := rfl
@[simp] theorem State.keyUp_rndDrawn (s : State) (k : Key) : (s.keyUp k).rndDrawn = s.rndDrawn := rfl

/-! ### `tickStart` -/

@[simp] theorem tickStart_v (s : State) : (tickStart s).v = s.v := rfl
@[simp] theorem tickStart_i (s : State) : (tickStart s).i = s.i := rfl
@[simp] theorem tickStart_pc (s : State) : (tickStart s).pc = s.pc := rfl
@[simp] theorem tickStart_dt (s : State) : (tickStart s).dt = countDown s.dt := rfl
@[simp] theorem tickStart_st (s : State) : (tickStart s).st = countDown s.st := rfl
@[simp] theorem tickStart_sp (s : State) : (tickStart s).sp = s.sp := rfl
@[simp] theorem tickStart_stack (s : State) : (tickStart s).stack = s.stack := rfl
@[simp] theorem tickStart_keys (s : State) : (tickStart s).keys = s.keys := rfl
@[simp] theorem tickStart_curKey (s : State) : (tickStart s).curKey = s.curKey := rfl
@[simp] theorem tickStart_fb (s : State) : (tickStart s).fb = s.fb := rfl
@[simp] theorem tickStart_mem (s : State) : (tickStart s).mem = s.mem := rfl
@[simp] theorem tickStart_fault (s : State) : (tickStart s).fault = s.fault := rfl
@[simp] theorem tickStart_status (s : State) : (tickStart s).status = s.status := rfl
@[simp] theorem tickStart_blitReport (s : State) : (tickStart s).blitReport = .empty := rfl
@[simp] theorem tickStart_rndPort (s : State) : (tickStart s).rndPort = s.rndPort := rfl
@[simp] theorem tickStart_rndDrawn (s : State) : (tickStart s).rndDrawn = s.rndDrawn := rfl

/-! ### `State.resetOp` -/

@[simp] theorem State.resetOp_v (s : State) : s.resetOp.v = State.reset.v := rfl
@[simp] theorem State.resetOp_i (s : State) : s.resetOp.i = State.reset.i := rfl
@[simp] theorem State.resetOp_pc (s : State) : s.resetOp.pc = State.reset.pc := rfl
@[simp] theorem State.resetOp_dt (s : State) : s.resetOp.dt = State.reset.dt := rfl
@[simp] theorem State.resetOp_st (s : State) : s.resetOp.st = State.reset.st := rfl
@[simp] theorem State.resetOp_sp (s : State) : s.resetOp.sp = State.reset.sp := rfl
@[simp] theorem State.resetOp_stack (s : State) : s.resetOp.stack = State.reset.stack := rfl
@[simp] theorem State.resetOp_keys (s : State) : s.resetOp.keys = s.keys := rfl
@[simp] theorem State.resetOp_curKey (s : State) : s.resetOp.curKey = s.curKey := rfl
@[simp] theorem State.resetOp_fb (s : State) : s.resetOp.fb = State.reset.fb := rfl
@[simp] theorem State.resetOp_mem (s : State) : s.resetOp.mem = State.reset.mem := rfl
@[simp] theorem State.resetOp_fault (s : State) : s.resetOp.fault = State.reset.fault := rfl
@[simp] theorem State.resetOp_status (s : State) : s.resetOp.status = State.reset.status := rfl
@[simp] theorem State.resetOp_blitReport (s : State) : s.resetOp.blitReport = State.reset.blitReport := rfl
@[simp] theorem State.resetOp_rndPort (s : State) : s.resetOp.rndPort = s.rndPort := rfl
@[simp] theorem State.resetOp_rndDrawn (s : State) : s.resetOp.rndDrawn = s.rndDrawn := rfl

/-! ### Reading registers after an update -/

@[simp] theorem State.getV_setV_same (s : State) (x : Reg) (b : Byte) : (s.setV x b).getV x = b := by
  simp [State.getV]

theorem State.getV_setV_other (s : State) {x z : Reg} (b : Byte) (h : z ≠ x) : (s.setV x b).getV z = s.getV z := by
  have hne : x.val ≠ z.val := fun hv => h (Fin.ext hv.symm)
  show (s.v.set x.val b)[z.val] = s.v[z.val]
  exact Vector.getElem_set_ne _ _ hne

theorem State.getV_setV (s : State) (x z : Reg) (b : Byte) :
    (s.setV x b).getV z = if z = x then b else s.getV z := by
  split
  · next h => subst h; simp
  · next h => exact State.getV_setV_other s b h

/-- The flag lands in VF as 0x00 or 0x01 (R26). -/
theorem State.getV_setFlag (s : State) (z : Reg) (b : Bool) :
    (s.setFlag b).getV z = if z = 15 then flagByte b else s.getV z := State.getV_setV s 15 z _

/-- The two writes of a flag-producing instruction: the result replaces the flag where x = F (R174). -/
theorem getV_writeFlagged (s : State) (x z : Reg) (r : Byte × Bool) :
    (writeFlagged x r s).getV z = if z = x then r.1 else if z = 15 then flagByte r.2 else s.getV z := by
  rw [writeFlagged, State.getV_setV, State.getV_setFlag]

theorem State.getV_fillRegs (s : State) (x z : Reg) (a : Nat) :
    (s.fillRegs x a).getV z = if z ≤ x then s.mem.read (a + z.val) else s.getV z := by
  simp [State.getV, State.fillRegs]

end Sys2Proof.Machine
end

