-- ==== Sys2Proof/Laws/Ops.lean ====
section
/-! SUPPORT. One lemma per shared operation that says everything it can do; later proofs cite it and do not unfold the
operation. -/

namespace Sys2Proof.Machine

/-- Everything `finish` can do (R125). -/
theorem finish_eq (o : PcOutcome) (s : State) : finish o s = .next { s with pc := o.apply s.pc, status := .ok } := rfl

/-- Everything taking a bounds violation can do (R238). -/
theorem raiseBounds_eq (kind : BoundsKind) (info : Word) (s : State) :
    raiseBounds kind info s =
      .next { s with fault := some ⟨kind, info⟩, status := .boundsViolation ⟨kind, info⟩ s.pc } := rfl

/-- Everything a decode failure can do (R236). -/
theorem decodeFailure_eq (w : Word) (s : State) :
    decodeFailure w s = .next { s with pc := s.pc + 2, status := .decodeFailure w s.pc } := rfl

/-- The block lies inside memory: the instruction goes on. -/
theorem guardBlock_inside {first count : Nat} (s : State) (ok : Answer) (h : first + count ≤ 4096 ∨ count = 0) :
    guardBlock first count s ok = ok := by
  have : ¬ (count ≠ 0 ∧ Config.memTop < first + count - 1) := by
    simp only [Config.memTop]
    omega
  simp [guardBlock, this]

/-- The block runs past 0xFFF: the violation is taken, with the highest address as info. -/
theorem guardBlock_outside {first count : Nat} (s : State) (ok : Answer) (h : 4096 < first + count) (hc : count ≠ 0) :
    guardBlock first count s ok = raiseBounds .memIndexOutOfRange (BitVec.ofNat 16 (first + count - 1)) s := by
  have : count ≠ 0 ∧ Config.memTop < first + count - 1 := by
    simp only [Config.memTop]
    omega
  simp [guardBlock, this]

/-- Everything the range check of a block can do. -/
theorem guardBlock_cases (first count : Nat) (s : State) (ok : Answer) :
    (guardBlock first count s ok = ok ∧ (first + count ≤ 4096 ∨ count = 0)) ∨
      (guardBlock first count s ok = raiseBounds .memIndexOutOfRange (BitVec.ofNat 16 (first + count - 1)) s ∧
        4096 < first + count ∧ count ≠ 0) := by
  by_cases h : first + count ≤ 4096 ∨ count = 0
  · exact .inl ⟨guardBlock_inside s ok h, h⟩
  · exact .inr ⟨guardBlock_outside s ok (by omega) (by omega), by omega, by omega⟩

/-- Everything a push can do (R142). -/
theorem push?_cases (s : State) (a : Word) :
    (s.push? a = none ∧ s.sp.val = 16) ∨
      ∃ h : s.sp.val < 16,
        s.push? a = some { s with stack := s.stack.set s.sp.val a, sp := ⟨s.sp.val + 1, Nat.succ_lt_succ h⟩ } := by
  have := s.sp_le
  by_cases h : s.sp.val < 16
  · exact .inr ⟨h, by simp [State.push?, h]⟩
  · exact .inl ⟨by simp [State.push?, h], by omega⟩

/-- Everything a pop can do (R140). -/
theorem pop?_cases (s : State) :
    (s.pop? = none ∧ s.sp.val = 0) ∨
      ∃ h : 0 < s.sp.val,
        s.pop? = some (s.stack[s.sp.val - 1]'(by have := s.sp_le; simp only [Config.stackDepth]; omega),
          { s with sp := ⟨s.sp.val - 1, by have := s.sp.isLt; omega⟩ }) := by
  by_cases h : 0 < s.sp.val
  · exact .inr ⟨h, by simp [State.pop?, h]⟩
  · exact .inl ⟨by simp [State.pop?, h], by omega⟩

/-- Everything a key or glyph number can be (R182, R213). -/
theorem index?_cases (n : Nat) (b : Byte) :
    (index? n b = none ∧ n ≤ b.toNat) ∨ ∃ h : b.toNat < n, index? n b = some ⟨b.toNat, h⟩ := by
  by_cases h : b.toNat < n
  · exact .inr ⟨h, by simp [index?, h]⟩
  · exact .inl ⟨by simp [index?, h], by omega⟩

/-- The next instruction's address (R125). -/
@[simp] theorem advance_one (pc : Word) : advance 1 pc = pc + 2 := rfl

/-- The address after the next instruction (R125). -/
@[simp] theorem advance_two (pc : Word) : advance 2 pc = pc + 4 := rfl

/-- The countdown takes one off and stops at zero (R200). -/
theorem toNat_countDown (t : Byte) : (countDown t).toNat = t.toNat - 1 := by
  by_cases h : t = 0
  · subst h; rfl
  · have : 0 < t.toNat := Nat.pos_of_ne_zero fun hz => h (BitVec.eq_of_toNat_eq (by simpa using hz))
    simp only [countDown, h, if_false]
    bv_omega

theorem toNat_zextAddr (nnn : Addr12) : (zextAddr nnn).toNat = nnn.toNat := by
  have := nnn.isLt
  simp only [zextAddr, BitVec.toNat_setWidth]
  omega

theorem toNat_zextByte (b : Byte) : (zextByte b).toNat = b.toNat := by
  have := b.isLt
  simp only [zextByte, BitVec.toNat_setWidth]
  omega

theorem toNat_glyphAddr (g : Fin Config.glyphCount) : (glyphAddr g).toNat = 5 * g.val := by
  revert g
  decide

@[simp] theorem length_bcdDigits (b : Byte) : (bcdDigits b).length = 3 := rfl

@[simp] theorem length_regBlock (s : State) (x : Reg) : (regBlock s x).length = x.val + 1 := by
  simp [regBlock]

theorem getElem?_regBlock (s : State) (x j : Reg) (h : j ≤ x) : (regBlock s x)[j.val]? = some (s.getV j) := by
  have hj : j.val < x.val + 1 := Nat.lt_succ_of_le h
  simp [regBlock, hj, State.getV]

theorem addFlag_sum (a b : Byte) : (addFlag a b).1.toNat = (a.toNat + b.toNat) % 256 := by simp [addFlag]

theorem subFlag_difference (a b : Byte) : (subFlag a b).1 = a - b := by
  have ha := a.isLt
  have hb := b.isLt
  apply BitVec.eq_of_toNat_eq
  simp only [subFlag, BitVec.toNat_ofInt, BitVec.toNat_sub]
  omega

end Sys2Proof.Machine
end

