-- ==== Sys2Proof/Laws/PerInstr.lean ====
section
/-! SUPPORT. Per instruction: its operands are in range and its word is none of the illegal words of 30_encoding.md R98. -/

namespace Sys2Proof.Laws.LegalWord

/-- The instruction is well formed (R94) and its word stands outside the table of R98. -/
def Statement (i : Instr) : Prop := WellFormed i = true ∧ illegalWord (encode i) = false

/-- The table of R98 names no word of the classes 1 to 4, 6, 7, A to D. -/
theorem legal_of_class {w : Word} (h : (classField w).toNat ∈ [1, 2, 3, 4, 6, 7, 10, 11, 12, 13]) :
    illegalWord w = false := by
  simp only [classField] at h
  simp only [illegalWord]
  revert h
  generalize (w.extractLsb' 12 4).toNat = c
  intro h
  fin_cases h <;> rfl

theorem cls : Statement .cls := by
  constructor <;> decide

theorem ret : Statement .ret := by
  constructor <;> decide

theorem jp (nnn : Addr12) : Statement (.jp nnn) :=
  ⟨by simp [WellFormed]; omega, legal_of_class (by simp [encode])⟩

theorem call (nnn : Addr12) : Statement (.call nnn) :=
  ⟨by simp [WellFormed]; omega, legal_of_class (by simp [encode])⟩

theorem seByte (x : Reg) (kk : Byte) : Statement (.seByte x kk) :=
  ⟨by simp [WellFormed]; omega, legal_of_class (by simp [encode])⟩

theorem sneByte (x : Reg) (kk : Byte) : Statement (.sneByte x kk) :=
  ⟨by simp [WellFormed]; omega, legal_of_class (by simp [encode])⟩

theorem seReg (x y : Reg) : Statement (.seReg x y) := by
  constructor
  · simp [WellFormed]
  · revert x y; decide

theorem ldByte (x : Reg) (kk : Byte) : Statement (.ldByte x kk) :=
  ⟨by simp [WellFormed]; omega, legal_of_class (by simp [encode])⟩

theorem addByte (x : Reg) (kk : Byte) : Statement (.addByte x kk) :=
  ⟨by simp [WellFormed]; omega, legal_of_class (by simp [encode])⟩

theorem ldReg (x y : Reg) : Statement (.ldReg x y) := by
  constructor
  · simp [WellFormed]
  · revert x y; decide

theorem orReg (x y : Reg) : Statement (.orReg x y) := by
  constructor
  · simp [WellFormed]
  · revert x y; decide

theorem andReg (x y : Reg) : Statement (.andReg x y) := by
  constructor
  · simp [WellFormed]
  · revert x y; decide

theorem xorReg (x y : Reg) : Statement (.xorReg x y) := by
  constructor
  · simp [WellFormed]
  · revert x y; decide

theorem addReg (x y : Reg) : Statement (.addReg x y) := by
  constructor
  · simp [WellFormed]
  · revert x y; decide

theorem sub (x y : Reg) : Statement (.sub x y) := by
  constructor
  · simp [WellFormed]
  · revert x y; decide

theorem shr (x y : Reg) : Statement (.shr x y) := by
  constructor
  · simp [WellFormed]
  · revert x y; decide

theorem subn (x y : Reg) : Statement (.subn x y) := by
  constructor
  · simp [WellFormed]
  · revert x y; decide

theorem shl (x y : Reg) : Statement (.shl x y) := by
  constructor
  · simp [WellFormed]
  · revert x y; decide

theorem sneReg (x y : Reg) : Statement (.sneReg x y) := by
  constructor
  · simp [WellFormed]
  · revert x y; decide

theorem ldI (nnn : Addr12) : Statement (.ldI nnn) :=
  ⟨by simp [WellFormed]; omega, legal_of_class (by simp [encode])⟩

theorem jpV0 (nnn : Addr12) : Statement (.jpV0 nnn) :=
  ⟨by simp [WellFormed]; omega, legal_of_class (by simp [encode])⟩

theorem rnd (x : Reg) (kk : Byte) : Statement (.rnd x kk) :=
  ⟨by simp [WellFormed]; omega, legal_of_class (by simp [encode])⟩

theorem drw (x y : Reg) (n : Nibble) : Statement (.drw x y n) :=
  ⟨by simp [WellFormed]; omega, legal_of_class (by simp [encode])⟩

theorem skp (x : Reg) : Statement (.skp x) := by
  constructor
  · simp [WellFormed]
  · revert x; decide

theorem sknp (x : Reg) : Statement (.sknp x) := by
  constructor
  · simp [WellFormed]
  · revert x; decide

theorem ldVxDt (x : Reg) : Statement (.ldVxDt x) := by
  constructor
  · simp [WellFormed]
  · revert x; decide

theorem ldVxK (x : Reg) : Statement (.ldVxK x) := by
  constructor
  · simp [WellFormed]
  · revert x; decide

theorem ldDtVx (x : Reg) : Statement (.ldDtVx x) := by
  constructor
  · simp [WellFormed]
  · revert x; decide

theorem ldStVx (x : Reg) : Statement (.ldStVx x) := by
  constructor
  · simp [WellFormed]
  · revert x; decide

theorem addI (x : Reg) : Statement (.addI x) := by
  constructor
  · simp [WellFormed]
  · revert x; decide

theorem ldF (x : Reg) : Statement (.ldF x) := by
  constructor
  · simp [WellFormed]
  · revert x; decide

theorem ldB (x : Reg) : Statement (.ldB x) := by
  constructor
  · simp [WellFormed]
  · revert x; decide

theorem storeRegs (x : Reg) : Statement (.storeRegs x) := by
  constructor
  · simp [WellFormed]
  · revert x; decide

theorem loadRegs (x : Reg) : Statement (.loadRegs x) := by
  constructor
  · simp [WellFormed]
  · revert x; decide

end Sys2Proof.Laws.LegalWord
end

