-- ==== Sys2Proof/Tests/Slice0.lean ====
section
/-! SUPPORT. Small tests: the decoder on words written out from the encodings, one or two steps per instruction with the
results of spec/95_test_vectors.md, the refused words, and a witness for the hypotheses of every statement. -/

namespace Sys2Proof.Tests

open Sys2Proof Sys2Proof.Machine

/-- The state after one tick that runs the word `w` from `s`; `s` itself where there is no next state. -/
def tick (s : State) (w : Nat) : State :=
  match step (s.withFetchWord 16 w) with
  | .next t => t
  | _ => s

/-- Reset with V1 and V2 set. -/
def v12 (a b : Byte) : State := (State.reset.setV 1 a).setV 2 b

/-! ### Decoding: every row, bits from most to least significant (30_encoding.md R95) -/

theorem test_decode_class0 : decodeWord 0b0000000011100000 = some .cls ∧ decodeWord 0b0000000011101110 = some .ret := by
  decide
theorem test_decode_jumps : decodeWord 0b0001101010111100 = some (.jp 0xABC) ∧
    decodeWord 0b0010101010111100 = some (.call 0xABC) ∧ decodeWord 0b1011111111111111 = some (.jpV0 0xFFF) := by decide
theorem test_decode_skips : decodeWord 0b0011000000000101 = some (.seByte 0 0x05) ∧
    decodeWord 0b0100101000000001 = some (.sneByte 0xA 0x01) ∧ decodeWord 0b0101000100100000 = some (.seReg 1 2) ∧
    decodeWord 0b1001000100100000 = some (.sneReg 1 2) := by decide
theorem test_decode_loads : decodeWord 0b0110101000111111 = some (.ldByte 0xA 0x3F) ∧
    decodeWord 0b0111000011111111 = some (.addByte 0 0xFF) ∧ decodeWord 0b1000000100100000 = some (.ldReg 1 2) ∧
    decodeWord 0b1100001100001111 = some (.rnd 3 0x0F) := by decide
theorem test_decode_logic : decodeWord 0b1000000100100001 = some (.orReg 1 2) ∧
    decodeWord 0b1000000100100010 = some (.andReg 1 2) ∧ decodeWord 0b1000000100100011 = some (.xorReg 1 2) := by decide
theorem test_decode_arithmetic : decodeWord 0b1000000100100100 = some (.addReg 1 2) ∧
    decodeWord 0b1000000100100101 = some (.sub 1 2) ∧ decodeWord 0b1000000111110110 = some (.shr 1 15) ∧
    decodeWord 0b1000000100100111 = some (.subn 1 2) ∧ decodeWord 0b1000000100001110 = some (.shl 1 0) := by decide
theorem test_decode_index : decodeWord 0b1010001100000000 = some (.ldI 0x300) ∧
    decodeWord 0b1111001000011110 = some (.addI 2) ∧ decodeWord 0b1111000000101001 = some (.ldF 0) ∧
    decodeWord 0b1111001000110011 = some (.ldB 2) ∧ decodeWord 0b1111000101010101 = some (.storeRegs 1) ∧
    decodeWord 0b1111001001100101 = some (.loadRegs 2) := by decide
theorem test_decode_display : decodeWord 0b1101000100100101 = some (.drw 1 2 5) := by decide
theorem test_decode_timers : decodeWord 0b1111000100000111 = some (.ldVxDt 1) ∧
    decodeWord 0b1111000000010101 = some (.ldDtVx 0) ∧ decodeWord 0b1111010100011000 = some (.ldStVx 5) := by decide
theorem test_decode_keypad : decodeWord 0b1110000010011110 = some (.skp 0) ∧
    decodeWord 0b1110000010100001 = some (.sknp 0) ∧ decodeWord 0b1111001000001010 = some (.ldVxK 2) := by decide
/-- Byte order (R63): 12 34 is JP 0x234 and not SE V4, 0x12. -/
theorem test_decode_byte_order : decodeBytes [0x12, 0x34, 0x56] = .ok (.jp 0x234, [0x56]) := by decide
theorem test_decode_rejects_by_name : decodeBytes [0x51, 0x21] = .error (.decodeFailure 0x5121) ∧
    decodeBytes [0x00] = .error .tooShort := by decide
theorem test_decodeTableWord : decodeTableWord 16 0xD125 = some (.drw 1 2 5) ∧ decodeTableWord 16 0 = none := by decide

/-! ### WellFormed: the check on words refuses an ill-formed one for each line of R98 -/

theorem test_illegal_class0 : illegalWord 0x0000 = true ∧ illegalWord 0x00E1 = true ∧ illegalWord 0x0ABC = true := by decide
theorem test_illegal_class5 : illegalWord 0x5121 = true ∧ illegalWord 0x512F = true := by decide
theorem test_illegal_class8 : illegalWord 0x8128 = true ∧ illegalWord 0x812D = true ∧ illegalWord 0x812F = true := by decide
theorem test_illegal_class9 : illegalWord 0x9121 = true ∧ illegalWord 0x912F = true := by decide
theorem test_illegal_classE : illegalWord 0xE09F = true ∧ illegalWord 0xE0A0 = true := by decide
theorem test_illegal_classF : illegalWord 0xF000 = true ∧ illegalWord 0xF075 = true := by decide
theorem test_legal_neighbours : [0x00E0, 0x00EE, 0x5120, 0x8127, 0x812E, 0x9120, 0xE09E, 0xF065].all
    (fun w => !illegalWord w) = true := by decide
theorem test_wellFormed_extremes : WellFormed (.drw 15 15 15) = true ∧ WellFormed (.jp 0xFFF) = true := by decide

/-! ### Control transfer (95_test_vectors.md 2.2) -/

theorem test_jp : (tick State.reset 0x1ABC).pc = 0x0ABC := by decide
theorem test_jp_top : (tick State.reset 0x1FFF).pc = 0x0FFF ∧
    step (tick State.reset 0x1FFF) =
      .next { tick State.reset 0x1FFF with
        fault := some ⟨.fetchOutOfRange, 0x0FFF⟩, status := .boundsViolation ⟨.fetchOutOfRange, 0x0FFF⟩ 0x0FFF } :=
  ⟨by decide, rfl⟩
theorem test_call : let t := tick { State.reset with pc := 0x301 } 0x2ABC
    t.pc = 0x0ABC ∧ t.sp = 1 ∧ t.stack[0] = 0x0303 := by decide
theorem test_call_full : let t := tick { State.reset with sp := 16 } 0x2300
    t.pc = 0x200 ∧ t.sp = 16 ∧ t.status = .boundsViolation ⟨.stackOverflow, 0x200⟩ 0x200 := by decide
theorem test_ret : let t := tick { State.reset with sp := 2, stack := (State.reset.stack.set 0 0x111).set 1 0x456 } 0x00EE
    t.pc = 0x456 ∧ t.sp = 1 ∧ t.stack[1] = 0x456 := by decide
theorem test_ret_empty : (tick { State.reset with dt := 5 } 0x00EE).fault = some ⟨.stackUnderflow, 0x200⟩ ∧
    (tick { State.reset with dt := 5 } 0x00EE).dt = 4 := by decide
theorem test_jpV0 : (tick (State.reset.setV 0 0xFF) 0xBFFF).pc = 0x10FE := by decide

/-! ### Skips (2.3) -/

theorem test_seByte : (tick (State.reset.setV 0 5) 0x3005).pc = 0x204 ∧ (tick (State.reset.setV 0 4) 0x3005).pc = 0x202 := by
  decide
theorem test_sneByte : (tick (State.reset.setV 0xA 1) 0x4A00).pc = 0x204 ∧ (tick State.reset 0x4A00).pc = 0x202 := by decide
theorem test_seReg : (tick (v12 0x7F 0x7F) 0x5120).pc = 0x204 ∧ (tick (v12 0x7F 0x7E) 0x5120).pc = 0x202 := by decide
theorem test_sneReg : (tick (v12 0 0x80) 0x9120).pc = 0x204 ∧ (tick (v12 3 3) 0x9120).pc = 0x202 := by decide

/-! ### ALU (2.4) -/

theorem test_ldByte : (tick State.reset 0x6A3F).getV 0xA = 0x3F := by decide
theorem test_addByte : (tick (State.reset.setV 0 0xFF) 0x7001).getV 0 = 0 ∧
    (tick (State.reset.setV 0 0xFF) 0x7001).getV 15 = 0 := by decide
theorem test_addByte_vf : (tick (State.reset.setV 15 0xFF) 0x7F01).getV 15 = 0 := by decide
theorem test_ldReg : (tick (v12 0 0x9C) 0x8120).getV 1 = 0x9C := by decide
theorem test_orReg : let t := tick ((v12 0xF0 0x0F).setV 15 7) 0x8121
    t.getV 1 = 0xFF ∧ t.getV 15 = 7 := by decide
theorem test_andReg : (tick (v12 0xF3 0x3F) 0x8122).getV 1 = 0x33 := by decide
theorem test_xorReg : (tick (v12 0xFF 0x0F) 0x8123).getV 1 = 0xF0 := by decide
theorem test_addReg : let t := tick (v12 0xFF 0xFF) 0x8124
    t.getV 1 = 0xFE ∧ t.getV 15 = 1 ∧ t.pc = 0x202 := by decide
theorem test_addReg_vf : (tick ((v12 2 0).setV 15 0x10) 0x8F14).getV 15 = 0x12 ∧
    (tick ((v12 0xFF 0).setV 15 1) 0x81F4).getV 15 = 1 := by decide
theorem test_sub : let t := tick (v12 0x0F 0x01) 0x8125
    t.getV 1 = 0x0E ∧ t.getV 15 = 1 := by decide
theorem test_sub_borrow : let t := tick (v12 0 1) 0x8125
    t.getV 1 = 0xFF ∧ t.getV 15 = 0 := by decide
theorem test_subn : let t := tick (v12 0x02 0x04) 0x8127
    t.getV 1 = 2 ∧ t.getV 15 = 1 := by decide
theorem test_subn_borrow : let t := tick (v12 4 2) 0x8127
    t.getV 1 = 0xFE ∧ t.getV 15 = 0 := by decide
theorem test_shr : let t := tick (v12 5 0xFF) 0x8126
    t.getV 1 = 2 ∧ t.getV 2 = 0xFF ∧ t.getV 15 = 1 := by decide
theorem test_shr_vf : (tick (State.reset.setV 15 7) 0x8F06).getV 15 = 3 := by decide
theorem test_shl : let t := tick (v12 0x81 0) 0x810E
    t.getV 1 = 2 ∧ t.getV 15 = 1 := by decide
theorem test_shl_vf : (tick (State.reset.setV 15 0x81) 0x8F0E).getV 15 = 2 := by decide
theorem test_rnd : (tick (State.reset.driveRnd 0xA7) 0xC30F).getV 3 = 7 := by decide

/-! ### Index register and memory (2.5) -/

theorem test_ldI : (tick { State.reset with i := 0xFFFF } 0xA300).i = 0x300 := by decide
theorem test_addI : (tick { State.reset.setV 0 1 with i := 0x0FFF } 0xF01E).i = 0x1000 ∧
    (tick { State.reset.setV 0 1 with i := 0xFFFF } 0xF01E).i = 0 := by decide
theorem test_ldF : (tick (State.reset.setV 0 0xF) 0xF029).i = 0x4B := by decide
theorem test_ldF_out : (tick (State.reset.setV 0 0x10) 0xF029).fault = some ⟨.glyphIndexOutOfRange, 0x10⟩ := by decide
theorem test_ldB : let t := tick { State.reset.setV 2 0xFF with i := 0xFFD } 0xF233
    t.mem.readList 0xFFD 3 = [2, 5, 5] := by decide
theorem test_ldB_out : let t := tick { State.reset.setV 2 0xFF with i := 0xFFE } 0xF233
    t.fault = some ⟨.memIndexOutOfRange, 0x1000⟩ ∧ t.mem.readList 0xFFE 2 = [0, 0] := by decide
theorem test_storeRegs : let t := tick { (v12 0xBB 0xCC).setV 0 0xAA with i := 0x400 } 0xF155
    t.mem.readList 0x400 3 = [0xAA, 0xBB, 0] ∧ t.i = 0x400 := by decide
theorem test_storeRegs_out : let t := tick { (v12 0xBB 0xCC).setV 0 0xAA with i := 0xFFF } 0xF155
    t.fault = some ⟨.memIndexOutOfRange, 0x1000⟩ ∧ t.mem.read 0xFFF = 0 := by decide
theorem test_loadRegs : let t := tick { State.reset.storeBytes 0x300 [2, 5, 4] with i := 0x300 } 0xF165
    t.getV 0 = 2 ∧ t.getV 1 = 5 ∧ t.getV 2 = 0 := by decide

/-! ### Display (2.6) -/

theorem test_cls : (tick { State.reset with fb := State.reset.fb.setPixel 31 63 true } 0x00E0).fb.pixel 31 63 = false := by
  decide
/-- V-D5: one cell turned off, its neighbour on, a collision, and the report in loop order. -/
theorem test_drw_collision :
    let t := tick { State.reset.storeBytes 0x300 [0xC0] with i := 0x300, fb := State.reset.fb.setPixel 0 0 true } 0xD121
    t.getV 15 = 1 ∧ t.blitReport = ⟨[⟨0, 0, false⟩, ⟨0, 1, true⟩], true⟩ := by decide +kernel
/-- V-D2: the wrap at the bottom right corner, row by row as the list of columns that are on. -/
theorem test_drw_wrap :
    let t := tick { (v12 63 31).storeBytes 0x300 [0xFF, 0x81] with i := 0x300 } 0xD122
    (List.finRange 64).filter (t.fb.pixel 31) = [0, 1, 2, 3, 4, 5, 6, 63] ∧
    (List.finRange 64).filter (t.fb.pixel 0) = [6, 63] ∧ t.getV 15 = 0 := by decide +kernel

/-! ### Timers and keypad (2.7, 2.8) -/

theorem test_ldVxDt : (tick { State.reset with dt := 3 } 0xF107).getV 1 = 2 ∧ (tick State.reset 0xF107).getV 1 = 0 := by decide
theorem test_ldDtVx : (tick { State.reset.setV 0 3 with dt := 9 } 0xF015).dt = 3 := by decide
theorem test_ldStVx : (tick (State.reset.setV 5 2) 0xF518).soundActive = true := by decide
theorem test_skp : (tick ((State.reset.setV 0 7).keyDown 7) 0xE09E).pc = 0x204 ∧
    (tick (State.reset.setV 0 7) 0xE09E).pc = 0x202 := by decide
theorem test_skp_out : (tick (State.reset.setV 0 0x10) 0xE09E).fault = some ⟨.keyIndexOutOfRange, 0x10⟩ := by decide
theorem test_sknp : (tick ((State.reset.setV 0 7).keyDown 7) 0xE0A1).pc = 0x202 ∧
    (tick (State.reset.setV 0 7) 0xE0A1).pc = 0x204 := by decide
theorem test_sknp_out : (tick (State.reset.setV 0 0xFF) 0xE0A1).fault = some ⟨.keyIndexOutOfRange, 0xFF⟩ := by decide
theorem test_ldVxK : (tick (State.reset.keyDown 7) 0xF20A).getV 2 = 7 ∧
    (tick (State.reset.keyDown 7) 0xF20A).pc = 0x202 ∧ (tick (State.reset.keyDown 7) 0xF20A).curKey = some 7 := by decide
/-- After key_down(1), key_down(2), key_up(2) a key is held and none is recorded: the wait blocks. -/
theorem test_ldVxK_blocks : (tick (((State.reset.keyDown 1).keyDown 2).keyUp 2) 0xF20A).pc = 0x200 ∧
    (((State.reset.keyDown 1).keyDown 2).keyUp 2).keys[1] = true := by decide

/-! ### The tick, the faults and the host (2.7, 2.9) -/

theorem test_decode_failure : let t := tick { State.reset with dt := 5, st := 5 } 0x0000
    t.dt = 4 ∧ t.st = 4 ∧ t.pc = 0x202 ∧ t.status = .decodeFailure 0 0x200 ∧ t.fault = none := by decide
theorem test_reset_runs_empty_memory : (tick State.reset 0x0000).pc = 0x202 ∧ State.reset.withFetchWord 16 0 = State.reset := by
  decide
theorem test_halted : let t := tick { State.reset with dt := 5 } 0x00EE
    step t = .next t := rfl
theorem test_reset_clears_fault : let t := (tick (State.reset.keyDown 3) 0x00EE).resetOp
    t.fault = none ∧ t.status = .ok ∧ t.keys[3] = true := by decide
theorem test_load : (State.reset.load [1, 2, 3]).mem.readList 0x200 4 = [1, 2, 3, 0] := by decide
theorem test_load_too_long : (State.reset.load (List.replicate 3585 0xFF)).fault = some ⟨.loadTooLong, 3585⟩ ∧
    (State.reset.load (List.replicate 3585 0xFF)).mem = [] := by decide +kernel
theorem test_font : State.reset.mem.readList 0x0F 5 = [0xF0, 0x10, 0xF0, 0x10, 0xF0] := by decide
/-- The bytes of P4 with its key event, as the host's moves. -/
theorem test_moves : (match runMoves [.load [0xF2, 0x0A], .tick 0, .keyDown 7, .tick 0] State.reset with
    | .next t => (t.pc, t.getV 2)
    | _ => (0, 0)) = (0x202, 7) := by decide

/-! ### Witnesses: a state and operands that meet the hypotheses of each statement that has some -/

/-- A halted core: RET on an empty stack. -/
def halted : State := violated .stackUnderflow 0x200 State.reset

theorem halted_consistent : Consistent halted := by
  refine ⟨Mem.wf_reset, fun l h => ?_, fun h => absurd h (by decide)⟩
  obtain rfl : (⟨.stackUnderflow, 0x200⟩ : Latch) = l := Option.some.inj h
  exact ⟨rfl, rfl⟩

theorem reset_consistent : Consistent State.reset := by
  refine ⟨Mem.wf_reset, fun l h => ?_, fun _ l p h => ?_⟩
  · cases h
  · cases h

theorem witness_ResetMemoryIsFontThenZero : 79 < Config.fontData.length ∧ 0xFFF ≤ 0xFFF ∧ Config.fontBase + 80 ≤ 80 := by decide
theorem witness_EncodeOfDecodedWord : decodeWord 0x81F6 = some (.shr 1 15) := by decide
theorem witness_OpcodeRowsNeverOverlap :
    (0x8124 : Word) &&& opcodeRows[13].mask = opcodeRows[13].value := by decide
theorem witness_LoadPlacesProgramOrLatches_fits : (List.replicate 3584 (0 : Byte)).length ≤ 3584 :=
  (List.length_replicate ..).le
theorem witness_LoadPlacesProgramOrLatches_long : 3584 < (List.replicate 3585 (0 : Byte)).length := by
  rw [List.length_replicate]; omega
theorem witness_StatusPortCarriesTheCodes : 3584 < (List.replicate 70000 (0 : Byte)).length := by
  rw [List.length_replicate]; omega
theorem witness_PixelQueryReadsTheCell : (31 < 32 ∧ 63 < 64) ∧ ¬ (32 < 32 ∧ 0 < 64) ∧ ¬ (0 < 32 ∧ 64 < 64) := by decide
theorem witness_StepRunsTheDecodedInstruction :
    executes ({ State.reset with pc := 0xFFE }.withFetchWord 16 0x6A3F) (.ldByte 0xA 0x3F) := by
  refine ⟨by decide, by decide, by decide⟩
theorem witness_TimersCountDownBeforeTheFetch : { State.reset with dt := 1 }.fault = none := by decide
theorem witness_HaltedTickChangesNothing : halted.fault = some ⟨.stackUnderflow, 0x200⟩ ∧ Consistent halted :=
  ⟨rfl, halted_consistent⟩
theorem witness_FetchOutOfRangeIsTaken :
    { State.reset with pc := 0xFFF }.fault = none ∧ 0xFFF < ({ State.reset with pc := 0xFFF } : State).pc.toNat + 1 := by decide
theorem witness_DecodeFailureAdvancesAndReports :
    ({ State.reset with pc := 0xFFE } : State).pc.toNat + 1 ≤ 0xFFF ∧
      decodeWord (fetched { State.reset with pc := 0xFFE }) = none ∧ State.reset.fault = none := by decide
theorem witness_CallPushesOrOverflows :
    ({ State.reset with sp := 15 } : State).sp.val < 16 ∧ ({ State.reset with sp := 16 } : State).sp.val = 16 := by decide
theorem witness_ReturnPopsOrUnderflows :
    ({ State.reset with sp := 16 } : State).sp.val = (15 : Fin 16).val + 1 ∧ State.reset.sp.val = 0 := by decide
theorem witness_ReturnUndoesCall : ∃ t u, State.reset.sp.val < 16 ∧ exec (.call 0x300) State.reset = .next t ∧
    exec .ret t = .next u := ⟨_, _, by decide, rfl, rfl⟩
theorem witness_FlaggedArithmeticIsExact : (14 : Reg) ≠ 15 := by decide
theorem witness_ReverseSubtractIsExact : (0 : Reg) ≠ 15 ∧ (1 : Reg) ≠ 0 := by decide
theorem witness_FlaggedAluFrame : Instr.shl 15 0 ∈ [Instr.addReg 15 0, .sub 15 0, .shr 15 0, .subn 15 0, .shl 15 0] ∧
    (1 : Reg) ≠ 15 := by decide
theorem witness_RandomLoadMasksTheInput : (State.reset.driveRnd 0xA7).rndPort = some 0xA7 ∧ State.reset.rndPort = none := by
  decide
theorem witness_FontLookupOrGlyphViolation :
    (State.reset.setV 0 15).v[0].toNat ≤ 15 ∧ 15 < (State.reset.setV 0 16).v[0].toNat := by decide
theorem witness_BcdUnpackStoresThreeDigits : ({ State.reset with i := 0xFFD } : State).i.toNat + 2 ≤ 0xFFF := by decide
theorem witness_BulkStoreWritesTheBlock :
    ({ State.reset with i := 0xFFF } : State).i.toNat + (0 : Reg).val ≤ 0xFFF ∧
      ({ State.reset with i := 0xFF0 } : State).i.toNat + (15 : Reg).val ≤ 0xFFF := by decide
theorem witness_BulkLoadFillsTheRegisters :
    ({ State.reset with i := 0xFF0 } : State).i.toNat + (15 : Reg).val ≤ 0xFFF := by decide
theorem witness_BlockAboveMemoryIsAllOrNothing_bcd : 0xFFF < ({ State.reset with i := 0xFFE } : State).i.toNat + 2 := by decide
theorem witness_BlockAboveMemoryIsAllOrNothing_bulk :
    0xFFF < ({ State.reset with i := 0xFF1 } : State).i.toNat + (15 : Reg).val := by decide
theorem witness_BlockAboveMemoryIsAllOrNothing_draw :
    (2 : Nibble) ≠ 0 ∧ 0xFFF < ({ State.reset with i := 0xFFF } : State).i.toNat + (2 : Nibble).toNat - 1 := by decide
theorem witness_BulkLoadReturnsTheStoredBlock : ∃ t u w : State, State.reset.i.toNat + (3 : Reg).val ≤ 0xFFF ∧
    exec (.storeRegs 3) State.reset = .next t ∧ u.mem = t.mem ∧ u.i = t.i ∧ exec (.loadRegs 3) u = .next w :=
  ⟨_, _, _, by decide, rfl, rfl, rfl, rfl⟩
/-- Program P5 before its fourth tick. -/
def selfModifying : State := { (State.reset.setV 0 0x12).setV 1 0x08 with i := 0x208, pc := 0x206 }
/-- The fetching state is a later one: other registers, and pc back at the block. -/
theorem witness_StoredInstructionIsFetched : ∃ t u, (0 + 1 ≤ (1 : Reg).val ∧ selfModifying.i.toNat + (1 : Reg).val ≤ 0xFFF) ∧
    exec (.storeRegs 1) selfModifying = .next t ∧ u = { t.setV 0 0 with pc := 0x208, dt := 9 } ∧ u.mem = t.mem ∧
    u.fault = none ∧ u.pc.toNat = selfModifying.i.toNat + 0 ∧
    decodeWord (selfModifying.v[0] ++ selfModifying.v[1]) = some (.jp 0x208) :=
  ⟨_, _, by decide, rfl, rfl, rfl, rfl, rfl, by decide⟩
theorem witness_DrawXorsTheSprite : (0 : Nibble) = 0 ∧
    ({ State.reset with i := 0xFF1 } : State).i.toNat + (15 : Nibble).toNat - 1 ≤ 0xFFF := by decide
/-- The sprite covers a cell and leaves another: both clauses on a cell are met. -/
theorem witness_DrawXorsTheSprite_cells : SpriteCovers [] 0 1 63 31 31 63 ∧ ¬ SpriteCovers [] 0 1 63 31 0 0 := by
  refine ⟨⟨0, by decide, 0, by decide, by decide, by decide, by decide⟩, ?_⟩
  rintro ⟨j, hj, i, -, h, -⟩
  obtain rfl : j = 0 := by omega
  exact absurd h (by decide)
theorem witness_DrawReportsTheChangedCells : ∃ t, State.reset.i.toNat + (5 : Nibble).toNat - 1 ≤ 0xFFF ∧
    exec (.drw 1 2 5) State.reset = .next t := ⟨_, by decide, rfl⟩
theorem witness_DrawTwiceRestoresTheDisplay : ∃ t u, ((1 : Reg) ≠ 15 ∧ (2 : Reg) ≠ 15) ∧
    State.reset.i.toNat + (5 : Nibble).toNat - 1 ≤ 0xFFF ∧ exec (.drw 1 2 5) State.reset = .next t ∧
    exec (.drw 1 2 5) t = .next u := ⟨_, _, by decide, by decide, rfl, rfl⟩
theorem witness_KeySkipsOrKeyViolation :
    (State.reset.setV 0 15).v[0].toNat = (15 : Key).val ∧ 15 < (State.reset.setV 0 16).v[0].toNat := by decide
theorem witness_KeyWaitStoresOrBlocks : (State.reset.keyDown 15).curKey = some 15 ∧ State.reset.curKey = none := by decide
theorem witness_BoundsViolationIsPrecise : ∃ t, (State.reset.withFetchWord 16 0x00EE).fault = none ∧
    step (State.reset.withFetchWord 16 0x00EE) = .next t ∧ t.fault = some ⟨.stackUnderflow, 0x200⟩ := ⟨_, rfl, rfl, rfl⟩
theorem witness_LatchClearedOnlyByResetOrLoad : ∃ t, halted.fault = some ⟨.stackUnderflow, 0x200⟩ ∧
    hostMove (.tick 0) halted = .next t := ⟨_, rfl, rfl⟩
theorem witness_StepKeepsConsistent : ∃ t, Consistent State.reset ∧ step State.reset = .next t := ⟨_, reset_consistent, rfl⟩
theorem witness_HostMovesKeepConsistent : ∃ t, Consistent halted ∧ hostMove (.load [0x12, 0x00]) halted = .next t :=
  ⟨_, halted_consistent, rfl⟩
theorem witness_HostMovesKeepPcBounded : ∃ t, PcBounded State.reset ∧ hostMove (.load [0x12, 0x00]) State.reset = .next t :=
  ⟨_, ⟨by decide, by decide⟩, rfl⟩
theorem witness_StepKeepsPcBounded : ∃ t, PcBounded State.reset ∧ step State.reset = .next t :=
  ⟨_, ⟨by decide, by decide⟩, rfl⟩
theorem witness_TickNeverChangesKeys : ∃ t, step (State.reset.keyDown 3) = .next t := ⟨_, rfl⟩
theorem witness_OnlyTheirInstructionsTouchDisplayAndStack_stack :
    ∃ t, step (State.reset.withFetchWord 16 0x2300) = .next t ∧ t.sp ≠ State.reset.sp ∧ t.stack ≠ State.reset.stack :=
  ⟨_, rfl, by decide, by decide⟩
theorem witness_OnlyTheirInstructionsTouchDisplayAndStack_display :
    ∃ t, step (State.reset.withFetchWord 16 0xD001) = .next t ∧ t.fb.pixel 0 0 ≠ State.reset.fb.pixel 0 0 :=
  ⟨_, rfl, by decide +kernel⟩
theorem witness_OnlyStoresWriteMemory : ∃ t, step (selfModifying.withFetchWord 16 0xF155) = .next t ∧
    t.mem.read 0x209 ≠ (selfModifying.withFetchWord 16 0xF155).mem.read 0x209 := ⟨_, rfl, by decide⟩
theorem witness_OnlyFlagProducersWriteVFUnasked :
    ∃ t, exec (.addReg 1 2) (v12 0xFF 0x01) = .next t ∧ t.v[15] ≠ (v12 0xFF 0x01).v[15] := ⟨_, rfl, by decide⟩
theorem witness_RandomInputMattersOnlyToRnd : ∃ t, (∀ x kk, ¬ executes State.reset (.rnd x kk)) ∧
    step State.reset = .next t := by
  refine ⟨_, fun x kk h => ?_, rfl⟩
  have : decodeWord (fetched State.reset) = none := by decide
  have h2 := h.2.2
  rw [this] at h2
  cases h2

end Sys2Proof.Tests
end

