-- ==== Sys2Proof/Proofs/ControlFlow.lean ====
section
/-! PROOFS. Control transfer (41_control_flow.md). -/

namespace Sys2Proof.Machine

/-- Execute's arm of JP addr, named by its meaning (R124, R141). -/
theorem exec_jp (nnn : Addr12) (s : State) : exec (.jp nnn) s = finish (.jump (zextAddr nnn)) s :=
  rfl

/-- A jump outcome leaves its target as the pc, whatever the pc was (R125). -/
theorem finish_jump (a : Word) (s : State) : finish (.jump a) s = .next { s with pc := a, status := .ok } :=
  finish_eq (.jump a) s

/-- Settles O21: the arm of JP answers a jump to the embedded address, and a jump sets pc and the status alone. -/
theorem jumpSetsPc : Obligations.JumpSetsPc := by
  intro s nnn
  calc exec (.jp nnn) s
      _ = finish (.jump (zextAddr nnn)) s := exec_jp nnn s
      _ = .next { s with pc := nnn.setWidth 16, status := .ok } := finish_jump (zextAddr nnn) s

end Sys2Proof.Machine
end

