-- ==== Sys2Proof/Proofs/Skip.lean ====
section
/-! PROOFS. The conditional skips on registers (42_skip.md). -/

namespace Sys2Proof.Machine

/-- Everything a conditional skip can do, for the proposition `p` its test decides: pc moves by one or two instruction
widths and the status is Ok (R125). -/
theorem skipIf_eq {c : Bool} {p : Prop} [Decidable p] (h : c = true ↔ p) (s : State) :
    skipIf c s = .next { s with pc := if p then s.pc + 4 else s.pc + 2, status := .ok } := by
  cases c with
  | true =>
    have hp : p := h.mp rfl
    rw [if_pos hp]
    exact finish_eq .skip s
  | false =>
    have hp : ¬ p := fun hp => Bool.false_ne_true (h.mpr hp)
    rw [if_neg hp]
    exact finish_eq .next s

/-- Execute's arm of SE Vx, byte (R124, R150). -/
theorem exec_seByte (x : Reg) (kk : Byte) (s : State) : exec (.seByte x kk) s = skipIf (s.v[x.val] == kk) s :=
  rfl

/-- Execute's arm of SNE Vx, byte (R124, R151). -/
theorem exec_sneByte (x : Reg) (kk : Byte) (s : State) : exec (.sneByte x kk) s = skipIf (s.v[x.val] != kk) s :=
  rfl

/-- Execute's arm of SE Vx, Vy (R124, R152). -/
theorem exec_seReg (x y : Reg) (s : State) : exec (.seReg x y) s = skipIf (s.v[x.val] == s.v[y.val]) s :=
  rfl

/-- Execute's arm of SNE Vx, Vy (R124, R153). -/
theorem exec_sneReg (x y : Reg) (s : State) : exec (.sneReg x y) s = skipIf (s.v[x.val] != s.v[y.val]) s :=
  rfl

/-- Settles O20: each arm is a conditional skip whose Boolean test decides the equality, or inequality, of whole bytes. -/
theorem registerSkipsCompareAndAdvance : Obligations.RegisterSkipsCompareAndAdvance := by
  intro s x y kk
  refine ⟨?seByte, ?sneByte, ?seReg, ?sneReg⟩
  case seByte => exact (exec_seByte x kk s).trans (skipIf_eq beq_iff_eq s)
  case sneByte => exact (exec_sneByte x kk s).trans (skipIf_eq bne_iff_ne s)
  case seReg => exact (exec_seReg x y s).trans (skipIf_eq beq_iff_eq s)
  case sneReg => exact (exec_sneReg x y s).trans (skipIf_eq bne_iff_ne s)

end Sys2Proof.Machine
end

