-- ==== Sys2Proof/Proofs/Loads.lean ====
section
/-! PROOFS. The loads of a register and of I (43_alu.md, 44_index_memory.md). -/

namespace Sys2Proof.Machine

/-- The outcome of an instruction that neither skips, jumps nor blocks: pc advances by two (R125). -/
theorem finish_next (s : State) : finish .next s = .next { s with pc := s.pc + 2, status := .ok } :=
  finish_eq .next s

/-- Execute's arm of LD Vx, byte (R124, R160). -/
theorem exec_ldByte (x : Reg) (kk : Byte) (s : State) : exec (.ldByte x kk) s = finish .next (s.setV x kk) :=
  rfl

/-- Execute's arm of LD Vx, Vy (R124, R162). -/
theorem exec_ldReg (x y : Reg) (s : State) : exec (.ldReg x y) s = finish .next (s.setV x s.v[y.val]) :=
  rfl

/-- Execute's arm of LD I, addr (R124, R180). -/
theorem exec_ldI (nnn : Addr12) (s : State) : exec (.ldI nnn) s = finish .next (s.setI (zextAddr nnn)) :=
  rfl

/-- Settles O26: each arm goes on to the next instruction from the state with its one destination written. -/
theorem loadsWriteTheirDestination : Obligations.LoadsWriteTheirDestination := by
  intro s x y kk nnn
  refine ⟨?ldByte, ?ldReg, ?ldI⟩
  case ldByte => exact (exec_ldByte x kk s).trans (finish_next (s.setV x kk))
  case ldReg => exact (exec_ldReg x y s).trans (finish_next (s.setV x s.v[y.val]))
  case ldI => exact (exec_ldI nnn s).trans (finish_next (s.setI (zextAddr nnn)))

end Sys2Proof.Machine
end

