-- ==== Sys2Proof/Proofs/Display.lean ====
section
/-! PROOFS. The clear of the display (45_display.md). -/

namespace Sys2Proof.Machine

/-- Execute's arm of CLS (R124, R190). -/
theorem exec_cls (s : State) : exec .cls s = finish .next (s.setFb .blank) :=
  rfl

/-- Settles O41: the arm of CLS goes on to the next instruction from the state with the blank framebuffer, whose every cell
is off. -/
theorem clearTurnsEveryCellOff : Obligations.ClearTurnsEveryCellOff := by
  intro s
  refine ⟨{ s with fb := .blank, pc := s.pc + 2, status := .ok }, ?answers, ?cellsOff, ?frame⟩
  case answers => exact (exec_cls s).trans (finish_next (s.setFb .blank))
  case cellsOff => exact FrameBuffer.pixel_blank
  case frame => rfl

end Sys2Proof.Machine
end

