-- ==== Sys2Proof/Proofs/Timers.lean ====
section
/-! PROOFS. The timers and the sound output (46_timers.md). -/

namespace Sys2Proof.Machine

/-- Settles O12: the output compares ST with zero, and that comparison decides the inequality. -/
theorem soundActiveIffTimerNonzero : Obligations.SoundActiveIffTimerNonzero := by
  intro s
  exact bne_iff_ne

/-- The tick of a core that is not halted: the report and the timers, then fetch and execute (R121). -/
theorem step_eq_fetchExecute {s : State} (h : s.fault = none) : step s = fetchExecute (tickStart s) := by
  rw [step, h]

/-- Settles O16: the state that the fetch starts from is `tickStart s`, in which each timer is its own countdown. -/
theorem timersCountDownBeforeTheFetch : Obligations.TimersCountDownBeforeTheFetch := by
  intro s hrunning
  refine ⟨tickStart s, ?fetches, ?delay, ?sound, ?frame⟩
  case fetches => exact step_eq_fetchExecute hrunning
  case delay => exact toNat_countDown s.dt
  case sound => exact toNat_countDown s.st
  case frame => rfl

/-- Execute's arm of LD Vx, DT (R124, R201). -/
theorem exec_ldVxDt (x : Reg) (s : State) : exec (.ldVxDt x) s = finish .next (s.setV x s.dt) :=
  rfl

/-- Execute's arm of LD DT, Vx (R124, R202). -/
theorem exec_ldDtVx (x : Reg) (s : State) : exec (.ldDtVx x) s = finish .next (s.setDt s.v[x.val]) :=
  rfl

/-- Execute's arm of LD ST, Vx (R124, R203). -/
theorem exec_ldStVx (x : Reg) (s : State) : exec (.ldStVx x) s = finish .next (s.setSt s.v[x.val]) :=
  rfl

/-- Settles O45: each arm goes on to the next instruction from the state with its one destination written. -/
theorem timerReadAndWrites : Obligations.TimerReadAndWrites := by
  intro s x
  refine ⟨?ldVxDt, ?ldDtVx, ?ldStVx⟩
  case ldVxDt => exact (exec_ldVxDt x s).trans (finish_next (s.setV x s.dt))
  case ldDtVx => exact (exec_ldDtVx x s).trans (finish_next (s.setDt s.v[x.val]))
  case ldStVx => exact (exec_ldStVx x s).trans (finish_next (s.setSt s.v[x.val]))

end Sys2Proof.Machine
end

