-- ==== Sys2Proof/Proofs/Keypad.lean ====
section
/-! PROOFS. The keypad's ports and the blocking key wait (47_keypad.md). -/

namespace Sys2Proof.Machine

/-- What a write of one key's flag leaves in every flag (R34). -/
theorem keyFlag_set (flags : Vector Bool Config.numKeys) (j k : Key) (b : Bool) :
    (flags.set k.val b)[j.val] = if j = k then b else flags[j.val] := by
  rw [Vector.getElem_set]
  simp only [Fin.ext_iff, eq_comm (a := k.val)]

/-- Settles O10: `keyDown` sets one flag and overwrites the record. -/
theorem keyDownSetsFlagAndRecord : Obligations.KeyDownSetsFlagAndRecord := by
  intro s k
  refine ⟨fun j => ?flags, ?frame⟩
  case flags => exact keyFlag_set s.keys j k true
  case frame => rfl

/-- Settles O11: `keyUp` clears one flag, and the record by the comparison with `k`. -/
theorem keyUpClearsFlagAndOwnRecord : Obligations.KeyUpClearsFlagAndOwnRecord := by
  intro s k
  refine ⟨fun j => ?flags, ?frame⟩
  case flags => exact keyFlag_set s.keys j k false
  case frame => rfl

/-- A blocked instruction leaves the pc at its own address, so that the next tick executes it again (R125). -/
theorem finish_block (s : State) : finish .block s = .next { s with status := .ok } :=
  finish_eq .block s

/-- Execute's arm of LD Vx, K while no key is recorded (R124, R215). -/
theorem exec_ldVxK_of_unrecorded (x : Reg) {s : State} (h : s.curKey = none) :
    exec (.ldVxK x) s = finish .block s := by
  change execLdVxK x s = _
  rw [execLdVxK, h]

/-- Execute's arm of LD Vx, K once a key is recorded (R124, R215). -/
theorem exec_ldVxK_of_recorded (x : Reg) {s : State} {k : Key} (h : s.curKey = some k) :
    exec (.ldVxK x) s = finish .next (s.setV x (keyCode k)) := by
  change execLdVxK x s = _
  rw [execLdVxK, h]

/-- Settles O47: the record alone decides whether the wait goes on with the key's code in Vx or blocks. -/
theorem keyWaitStoresOrBlocks : Obligations.KeyWaitStoresOrBlocks := by
  intro s x
  refine ⟨fun k hrecorded => ?stores, fun hunrecorded => ?blocks⟩
  case stores => exact (exec_ldVxK_of_recorded x hrecorded).trans (finish_next (s.setV x (keyCode k)))
  case blocks => exact (exec_ldVxK_of_unrecorded x hunrecorded).trans (finish_block s)

end Sys2Proof.Machine
end

/-! PROOFS. The encoding: the opcode map, the decoder and the encoder (30_encoding.md). -/

namespace Sys2Proof

/-! ### Decoding is selecting the one row that matches -/

/-- Two rows whose masks and match values agree on their common bits are one row: the finite check behind R96. -/
theorem row_eq_of_compatible : ∀ a b : Fin opcodeRows.length,
    opcodeRows[a].value &&& opcodeRows[b].mask = opcodeRows[b].value &&& opcodeRows[a].mask → a = b := by
  decide

/-- Settles O3: a word that matches both rows makes each row's match value agree with the other under the other's mask. -/
theorem opcodeRowsNeverOverlap : Obligations.OpcodeRowsNeverOverlap := by
  intro w a b ha hb
  apply row_eq_of_compatible
  rw [← ha, ← hb]
  ac_rfl

theorem selects_iff (w : Word) (r : Row) : selects w r = true ↔ w &&& r.mask = r.value :=
  beq_iff_eq

/-- Since no other row matches, the search answers the row that does, wherever it stands (R96). -/
theorem decodeWord_of_selected {w : Word} {r : Row} (k : Nat) (hrow : opcodeRows[k]? = some r)
    (h : w &&& r.mask = r.value) : decodeWord w = some (r.build w) := by
  obtain ⟨hk, rfl⟩ := List.getElem?_eq_some_iff.mp hrow
  have hfind : opcodeRows.find? (selects w) = some opcodeRows[k] := by
    rw [List.find?_eq_some_iff_getElem]
    refine ⟨(selects_iff w _).mpr h, k, hk, rfl, fun j hj => ?_⟩
    by_contra hsel
    have hmatch : selects w opcodeRows[j] = true := by simpa using hsel
    have hrows : (⟨j, hj.trans hk⟩ : Fin opcodeRows.length) = ⟨k, hk⟩ :=
      opcodeRowsNeverOverlap w _ _ ((selects_iff w _).mp hmatch) h
    exact absurd (congrArg Fin.val hrows) (Nat.ne_of_lt hj)
  rw [decodeWord, hfind, Option.map_some]

/-- A word that decodes was built by a row that matches it (R96). -/
theorem exists_selected_of_decodeWord {w : Word} {i : Instr} (h : decodeWord w = some i) :
    ∃ r ∈ opcodeRows, w &&& r.mask = r.value ∧ r.build w = i := by
  obtain ⟨r, hfind, hbuild⟩ := Option.map_eq_some_iff.mp h
  exact ⟨r, List.mem_of_find?_eq_some hfind, (selects_iff w r).mp (List.find?_some hfind), hbuild⟩

/-! ### The kinds of row: by class, by class and low nibble, by class and low byte -/

section
variable {w : Word} {c : BitVec 4} {build : Word → Instr} (k : Nat)

/-- A row with mask 0xF000 decodes every word of its class. -/
theorem decodeWord_of_class (hrow : opcodeRows[k]? = some ⟨0xF000, wordAddr c 0, build⟩) (hc : classField w = c) :
    decodeWord w = some (build w) :=
  decodeWord_of_selected k hrow ((and_class_mask w c).mpr hc)

/-- A row with mask 0xF00F decodes every word of its class and low nibble. -/
theorem decodeWord_of_class_n {n : Nibble} (hrow : opcodeRows[k]? = some ⟨0xF00F, wordRegReg c 0 0 n, build⟩)
    (hc : classField w = c) (hn : nField w = n) : decodeWord w = some (build w) :=
  decodeWord_of_selected k hrow ((and_class_n_mask w c n).mpr ⟨hc, hn⟩)

/-- A row with mask 0xF0FF decodes every word of its class and low byte. -/
theorem decodeWord_of_class_kk {kk : Byte} (hrow : opcodeRows[k]? = some ⟨0xF0FF, wordRegImm c 0 kk, build⟩)
    (hc : classField w = c) (hkk : kkField w = kk) : decodeWord w = some (build w) :=
  decodeWord_of_selected k hrow ((and_class_kk_mask w c kk).mpr ⟨hc, hkk⟩)

end

/-- The encoder's word of an instruction decodes to it: its class, low nibble and low byte select the instruction's row, and
the row reads the operands back from their fields (R92, R93, R95). -/
theorem decodeWord_encode (i : Instr) : decodeWord (encode i) = some i := by
  cases i with
  | cls => decide
  | ret => decide
  | jp nnn => simpa [encode] using decodeWord_of_class 2 rfl (class_wordAddr 0x1 nnn)
  | call nnn => simpa [encode] using decodeWord_of_class 3 rfl (class_wordAddr 0x2 nnn)
  | seByte x kk => simpa [encode] using decodeWord_of_class 4 rfl (class_wordRegImm 0x3 x kk)
  | sneByte x kk => simpa [encode] using decodeWord_of_class 5 rfl (class_wordRegImm 0x4 x kk)
  | seReg x y => simpa [encode] using decodeWord_of_class_n 6 rfl (class_wordRegReg 0x5 x y 0x0) (n_wordRegReg _ x y _)
  | ldByte x kk => simpa [encode] using decodeWord_of_class 7 rfl (class_wordRegImm 0x6 x kk)
  | addByte x kk => simpa [encode] using decodeWord_of_class 8 rfl (class_wordRegImm 0x7 x kk)
  | ldReg x y => simpa [encode] using decodeWord_of_class_n 9 rfl (class_wordRegReg 0x8 x y 0x0) (n_wordRegReg _ x y _)
  | orReg x y => simpa [encode] using decodeWord_of_class_n 10 rfl (class_wordRegReg 0x8 x y 0x1) (n_wordRegReg _ x y _)
  | andReg x y => simpa [encode] using decodeWord_of_class_n 11 rfl (class_wordRegReg 0x8 x y 0x2) (n_wordRegReg _ x y _)
  | xorReg x y => simpa [encode] using decodeWord_of_class_n 12 rfl (class_wordRegReg 0x8 x y 0x3) (n_wordRegReg _ x y _)
  | addReg x y => simpa [encode] using decodeWord_of_class_n 13 rfl (class_wordRegReg 0x8 x y 0x4) (n_wordRegReg _ x y _)
  | sub x y => simpa [encode] using decodeWord_of_class_n 14 rfl (class_wordRegReg 0x8 x y 0x5) (n_wordRegReg _ x y _)
  | shr x y => simpa [encode] using decodeWord_of_class_n 15 rfl (class_wordRegReg 0x8 x y 0x6) (n_wordRegReg _ x y _)
  | subn x y => simpa [encode] using decodeWord_of_class_n 16 rfl (class_wordRegReg 0x8 x y 0x7) (n_wordRegReg _ x y _)
  | shl x y => simpa [encode] using decodeWord_of_class_n 17 rfl (class_wordRegReg 0x8 x y 0xE) (n_wordRegReg _ x y _)
  | sneReg x y => simpa [encode] using decodeWord_of_class_n 18 rfl (class_wordRegReg 0x9 x y 0x0) (n_wordRegReg _ x y _)
  | ldI nnn => simpa [encode] using decodeWord_of_class 19 rfl (class_wordAddr 0xA nnn)
  | jpV0 nnn => simpa [encode] using decodeWord_of_class 20 rfl (class_wordAddr 0xB nnn)
  | rnd x kk => simpa [encode] using decodeWord_of_class 21 rfl (class_wordRegImm 0xC x kk)
  | drw x y n => simpa [encode] using decodeWord_of_class 22 rfl (class_wordRegReg 0xD x y n)
  | skp x => simpa [encode] using decodeWord_of_class_kk 23 rfl (class_wordRegImm 0xE x 0x9E) (kk_wordRegImm _ x _)
  | sknp x => simpa [encode] using decodeWord_of_class_kk 24 rfl (class_wordRegImm 0xE x 0xA1) (kk_wordRegImm _ x _)
  | ldVxDt x => simpa [encode] using decodeWord_of_class_kk 25 rfl (class_wordRegImm 0xF x 0x07) (kk_wordRegImm _ x _)
  | ldVxK x => simpa [encode] using decodeWord_of_class_kk 26 rfl (class_wordRegImm 0xF x 0x0A) (kk_wordRegImm _ x _)
  | ldDtVx x => simpa [encode] using decodeWord_of_class_kk 27 rfl (class_wordRegImm 0xF x 0x15) (kk_wordRegImm _ x _)
  | ldStVx x => simpa [encode] using decodeWord_of_class_kk 28 rfl (class_wordRegImm 0xF x 0x18) (kk_wordRegImm _ x _)
  | addI x => simpa [encode] using decodeWord_of_class_kk 29 rfl (class_wordRegImm 0xF x 0x1E) (kk_wordRegImm _ x _)
  | ldF x => simpa [encode] using decodeWord_of_class_kk 30 rfl (class_wordRegImm 0xF x 0x29) (kk_wordRegImm _ x _)
  | ldB x => simpa [encode] using decodeWord_of_class_kk 31 rfl (class_wordRegImm 0xF x 0x33) (kk_wordRegImm _ x _)
  | storeRegs x => simpa [encode] using decodeWord_of_class_kk 32 rfl (class_wordRegImm 0xF x 0x55) (kk_wordRegImm _ x _)
  | loadRegs x => simpa [encode] using decodeWord_of_class_kk 33 rfl (class_wordRegImm 0xF x 0x65) (kk_wordRegImm _ x _)

/-- Settles O1: the word decodes by its row, and its bytes in memory order are that word again. -/
theorem decodeOfEncodedInstruction : Obligations.DecodeOfEncodedInstruction := by
  intro i
  refine ⟨decodeWord_encode i, fun rest => ?_⟩
  simp [encodeBytes, decodeBytes, decodeWord_encode]

/-! ### Every row's word is built from its fields -/

/-- No bit of a word that matches the row is lost: the encoder gives it back from the instruction the row builds. -/
def Row.Inverts (r : Row) : Prop := ∀ w, w &&& r.mask = r.value → encode (r.build w) = w

section
variable {w : Word} {c : BitVec 4}

theorem wordAddr_of_class (h : w &&& 0xF000 = wordAddr c 0) : wordAddr c (nnnField w) = w := by
  rw [← (and_class_mask w c).mp h, wordAddr_fields]

theorem wordRegImm_of_class (h : w &&& 0xF000 = wordAddr c 0) : wordRegImm c (xField w) (kkField w) = w := by
  rw [← (and_class_mask w c).mp h, wordRegImm_fields]

theorem wordRegReg_of_class (h : w &&& 0xF000 = wordAddr c 0) : wordRegReg c (xField w) (yField w) (nField w) = w := by
  rw [← (and_class_mask w c).mp h, wordRegReg_fields]

theorem wordRegReg_of_class_n {n : Nibble} (h : w &&& 0xF00F = wordRegReg c 0 0 n) :
    wordRegReg c (xField w) (yField w) n = w := by
  obtain ⟨rfl, rfl⟩ := (and_class_n_mask w c n).mp h
  exact wordRegReg_fields w

theorem wordRegImm_of_class_kk {kk : Byte} (h : w &&& 0xF0FF = wordRegImm c 0 kk) : wordRegImm c (xField w) kk = w := by
  obtain ⟨rfl, rfl⟩ := (and_class_kk_mask w c kk).mp h
  exact wordRegImm_fields w

theorem eq_of_full_mask {v : Word} (h : w &&& 0xFFFF = v) : v = w :=
  h.symm.trans BitVec.and_allOnes

end

/-- Classes 0 to 7. -/
theorem rowsLow_invert : ∀ r ∈ rowsLow, r.Inverts := by
  simp only [rowsLow, List.forall_mem_cons, List.not_mem_nil, false_imp_iff, implies_true]
  exact ⟨fun _ h => eq_of_full_mask h, fun _ h => eq_of_full_mask h, fun _ h => wordAddr_of_class h,
    fun _ h => wordAddr_of_class h, fun _ h => wordRegImm_of_class h, fun _ h => wordRegImm_of_class h,
    fun _ h => wordRegReg_of_class_n h, fun _ h => wordRegImm_of_class h, fun _ h => wordRegImm_of_class h, trivial⟩

/-- Class 8: every row tests the class and the low nibble and keeps x and y. -/
theorem rowsAlu_invert : ∀ r ∈ rowsAlu, r.Inverts := by
  simp only [rowsAlu, List.forall_mem_cons, List.not_mem_nil, false_imp_iff, implies_true]
  refine ⟨?_, ?_, ?_, ?_, ?_, ?_, ?_, ?_, ?_, trivial⟩ <;> exact fun _ h => wordRegReg_of_class_n h

/-- Classes 9 to E. -/
theorem rowsMid_invert : ∀ r ∈ rowsMid, r.Inverts := by
  simp only [rowsMid, List.forall_mem_cons, List.not_mem_nil, false_imp_iff, implies_true]
  exact ⟨fun _ h => wordRegReg_of_class_n h, fun _ h => wordAddr_of_class h, fun _ h => wordAddr_of_class h,
    fun _ h => wordRegImm_of_class h, fun _ h => wordRegReg_of_class h, fun _ h => wordRegImm_of_class_kk h,
    fun _ h => wordRegImm_of_class_kk h, trivial⟩

/-- Class F: every row tests the class and the low byte and keeps x. -/
theorem rowsHigh_invert : ∀ r ∈ rowsHigh, r.Inverts := by
  simp only [rowsHigh, List.forall_mem_cons, List.not_mem_nil, false_imp_iff, implies_true]
  refine ⟨?_, ?_, ?_, ?_, ?_, ?_, ?_, ?_, ?_, trivial⟩ <;> exact fun _ h => wordRegImm_of_class_kk h

/-- Every row of the opcode map inverts the encoder. -/
theorem opcodeRows_invert : ∀ r ∈ opcodeRows, r.Inverts := by
  simp only [opcodeRows, List.forall_mem_append]
  exact ⟨⟨⟨rowsLow_invert, rowsAlu_invert⟩, rowsMid_invert⟩, rowsHigh_invert⟩

/-- Settles O2: the word matches the row that built the instruction, and every row inverts the encoder. -/
theorem encodeOfDecodedWord : Obligations.EncodeOfDecodedWord := by
  intro w i h
  obtain ⟨r, hr, hmatch, rfl⟩ := exists_selected_of_decodeWord h
  exact opcodeRows_invert r hr w hmatch

/-! ### The words that decode to nothing -/

/-- No word of an instruction stands in the table of R98. -/
theorem illegalWord_encode (i : Instr) : illegalWord (encode i) = false := by
  suffices h : Laws.LegalWord.Statement i from h.2
  open Laws.LegalWord in
  cases i with
  | cls => exact cls
  | ret => exact ret
  | jp nnn => exact jp nnn
  | call nnn => exact call nnn
  | seByte x kk => exact seByte x kk
  | sneByte x kk => exact sneByte x kk
  | seReg x y => exact seReg x y
  | ldByte x kk => exact ldByte x kk
  | addByte x kk => exact addByte x kk
  | ldReg x y => exact ldReg x y
  | orReg x y => exact orReg x y
  | andReg x y => exact andReg x y
  | xorReg x y => exact xorReg x y
  | addReg x y => exact addReg x y
  | sub x y => exact sub x y
  | shr x y => exact shr x y
  | subn x y => exact subn x y
  | shl x y => exact shl x y
  | sneReg x y => exact sneReg x y
  | ldI nnn => exact ldI nnn
  | jpV0 nnn => exact jpV0 nnn
  | rnd x kk => exact rnd x kk
  | drw x y n => exact drw x y n
  | skp x => exact skp x
  | sknp x => exact sknp x
  | ldVxDt x => exact ldVxDt x
  | ldVxK x => exact ldVxK x
  | ldDtVx x => exact ldDtVx x
  | ldStVx x => exact ldStVx x
  | addI x => exact addI x
  | ldF x => exact ldF x
  | ldB x => exact ldB x
  | storeRegs x => exact storeRegs x
  | loadRegs x => exact loadRegs x

section
variable {w : Word} {c : BitVec 4}

/-! A word decodes where the opcode map has a row for its class, or for its class and low nibble or byte. -/

theorem exists_decode_of_class
    (h : ∃ k : Fin opcodeRows.length, opcodeRows[k].mask = 0xF000 ∧ opcodeRows[k].value = wordAddr c 0)
    (hc : classField w = c) : ∃ i, decodeWord w = some i := by
  obtain ⟨k, hmask, hvalue⟩ := h
  have hmatch : w &&& opcodeRows[k].mask = opcodeRows[k].value := by rw [hmask, hvalue, and_class_mask, hc]
  exact ⟨_, decodeWord_of_selected k.val (List.getElem?_eq_getElem k.isLt) hmatch⟩

theorem exists_decode_of_class_n {n : Nibble}
    (h : ∃ k : Fin opcodeRows.length, opcodeRows[k].mask = 0xF00F ∧ opcodeRows[k].value = wordRegReg c 0 0 n)
    (hc : classField w = c) (hn : nField w = n) : ∃ i, decodeWord w = some i := by
  obtain ⟨k, hmask, hvalue⟩ := h
  have hmatch : w &&& opcodeRows[k].mask = opcodeRows[k].value := by
    rw [hmask, hvalue]
    exact (and_class_n_mask w c n).mpr ⟨hc, hn⟩
  exact ⟨_, decodeWord_of_selected k.val (List.getElem?_eq_getElem k.isLt) hmatch⟩

theorem exists_decode_of_class_kk {kk : Byte}
    (h : ∃ k : Fin opcodeRows.length, opcodeRows[k].mask = 0xF0FF ∧ opcodeRows[k].value = wordRegImm c 0 kk)
    (hc : classField w = c) (hkk : kkField w = kk) : ∃ i, decodeWord w = some i := by
  obtain ⟨k, hmask, hvalue⟩ := h
  have hmatch : w &&& opcodeRows[k].mask = opcodeRows[k].value := by
    rw [hmask, hvalue]
    exact (and_class_kk_mask w c kk).mpr ⟨hc, hkk⟩
  exact ⟨_, decodeWord_of_selected k.val (List.getElem?_eq_getElem k.isLt) hmatch⟩

end

/-! What the table of R98 leaves of each class has a row: finite checks on the class, the low nibble or the low byte. -/

theorem class_simple_or_partial : ∀ c : BitVec 4,
    (∃ k : Fin opcodeRows.length, opcodeRows[k].mask = 0xF000 ∧ opcodeRows[k].value = wordAddr c 0) ∨
      c = 0x0 ∨ c = 0x5 ∨ c = 0x8 ∨ c = 0x9 ∨ c = 0xE ∨ c = 0xF := by
  decide

theorem class5_row : ∀ n : Nibble, decide (1 ≤ n.toNat) = false →
    ∃ k : Fin opcodeRows.length, opcodeRows[k].mask = 0xF00F ∧ opcodeRows[k].value = wordRegReg 0x5 0 0 n := by
  decide

theorem class8_row : ∀ n : Nibble, ((8 ≤ n.toNat && n.toNat ≤ 0xD) || n.toNat == 0xF) = false →
    ∃ k : Fin opcodeRows.length, opcodeRows[k].mask = 0xF00F ∧ opcodeRows[k].value = wordRegReg 0x8 0 0 n := by
  decide

theorem class9_row : ∀ n : Nibble, decide (1 ≤ n.toNat) = false →
    ∃ k : Fin opcodeRows.length, opcodeRows[k].mask = 0xF00F ∧ opcodeRows[k].value = wordRegReg 0x9 0 0 n := by
  decide

theorem classE_row : ∀ kk : Byte, (kk.toNat != 0x9E && kk.toNat != 0xA1) = false →
    ∃ k : Fin opcodeRows.length, opcodeRows[k].mask = 0xF0FF ∧ opcodeRows[k].value = wordRegImm 0xE 0 kk := by
  decide

theorem classF_row : ∀ kk : Byte,
    (!([0x07, 0x0A, 0x15, 0x18, 0x1E, 0x29, 0x33, 0x55, 0x65].contains kk.toNat)) = false →
    ∃ k : Fin opcodeRows.length, opcodeRows[k].mask = 0xF0FF ∧ opcodeRows[k].value = wordRegImm 0xF 0 kk := by
  decide

/-- A word outside the table of R98 is decoded, class by class: a line of the table is exactly the condition under which its
class has no row. -/
theorem exists_decode_of_legal {w : Word} (h : illegalWord w = false) : ∃ i, decodeWord w = some i := by
  rw [illegalWord, ← classField] at h
  obtain hrow | hc | hc | hc | hc | hc | hc := class_simple_or_partial (classField w)
  · exact exists_decode_of_class hrow rfl
  · have hw : w = 0x00E0 ∨ w = 0x00EE := by
      rw [hc] at h
      simpa [or_iff_not_imp_left] using h
    obtain rfl | rfl := hw
    · exact ⟨.cls, decodeWord_encode .cls⟩
    · exact ⟨.ret, decodeWord_encode .ret⟩
  · rw [hc] at h
    exact exists_decode_of_class_n (class5_row (nField w) h) hc rfl
  · rw [hc] at h
    exact exists_decode_of_class_n (class8_row (nField w) h) hc rfl
  · rw [hc] at h
    exact exists_decode_of_class_n (class9_row (nField w) h) hc rfl
  · rw [hc] at h
    exact exists_decode_of_class_kk (classE_row (kkField w) h) hc rfl
  · rw [hc] at h
    exact exists_decode_of_class_kk (classF_row (kkField w) h) hc rfl

/-- Settles O4: a word that decodes is the encoding of an instruction and so outside the table, and a word outside the table
is decoded. -/
theorem decodeFailsExactlyOnIllegalWords : Obligations.DecodeFailsExactlyOnIllegalWords := by
  intro w
  constructor
  · intro hnone
    by_contra hlegal
    obtain ⟨i, hi⟩ := exists_decode_of_legal (Bool.eq_false_iff.mpr hlegal)
    exact Option.some_ne_none i (hi.symm.trans hnone)
  · intro hillegal
    by_contra hsome
    obtain ⟨i, hi⟩ := Option.ne_none_iff_exists'.mp hsome
    rw [← encodeOfDecodedWord w i hi, illegalWord_encode i] at hillegal
    exact Bool.false_ne_true hillegal

/-- Settles O5. The seven words that decode are the encodings of their instructions; the other two stand in the table of
R98. -/
theorem decodesWorkedExamples : Obligations.DecodesWorkedExamples :=
  ⟨decodeWord_encode .cls, decodeWord_encode (.jp 0x20C), decodeWord_encode (.ldByte 0xA 0x3F),
    decodeWord_encode (.addReg 1 2), decodeWord_encode (.drw 1 2 5), decodeWord_encode (.loadRegs 2),
    decodeWord_encode (.sknp 0), (decodeFailsExactlyOnIllegalWords 0x5121).mpr rfl,
    (decodeFailsExactlyOnIllegalWords 0x0000).mpr rfl⟩

end Sys2Proof

/-! PROOFS. Execute's arms, one rule each: what the arm of an instruction answers, under the conditions on the state that its
meaning tests (40_cycle.md R124). -/

namespace Sys2Proof.Machine

/-- An answer has one next state. -/
theorem eq_of_next {a : Answer} {t u : State} (ht : a = .next t) (hu : a = .next u) : t = u :=
  Host.Outcome.next.inj (ht.symm.trans hu)

/-! ### Key and glyph numbers -/

/-- A byte below `n` names the entry of that number (R182, R213). -/
theorem index?_eq_some {n : Nat} {b : Byte} {k : Fin n} (h : b.toNat = k.val) : index? n b = some k := by
  obtain ⟨-, hle⟩ | ⟨_, hsome⟩ := index?_cases n b
  · exact absurd k.isLt (Nat.not_lt.mpr (hle.trans_eq h))
  · rw [hsome, Option.some_inj]
    exact Fin.ext h

/-- A byte of `n` or more names none. -/
theorem index?_eq_none {n : Nat} {b : Byte} (h : n ≤ b.toNat) : index? n b = none := by
  obtain ⟨hnone, -⟩ | ⟨hlt, -⟩ := index?_cases n b
  · exact hnone
  · exact absurd hlt (Nat.not_lt.mpr h)

/-! ### Control transfer -/

/-- RET with an entry held: a jump to the top entry, sp one less (R140). -/
theorem exec_ret_of_held {s : State} (h : 0 < s.sp.val) :
    exec .ret s = finish (.jump (s.stack[s.sp.val - 1]'(by have := s.sp_le; simp only [Config.stackDepth]; omega)))
      { s with sp := ⟨s.sp.val - 1, by have := s.sp.isLt; omega⟩ } := by
  change execRet s = _
  obtain ⟨-, hempty⟩ | ⟨_, hpop⟩ := pop?_cases s
  · omega
  · rw [execRet, hpop]

/-- RET with no entry held (R140). -/
theorem exec_ret_of_empty {s : State} (h : s.sp.val = 0) : exec .ret s = raiseBounds .stackUnderflow s.pc s := by
  change execRet s = _
  obtain ⟨hpop, -⟩ | ⟨hheld, -⟩ := pop?_cases s
  · rw [execRet, hpop]
  · omega

/-- CALL with an entry free: pc + 2 is pushed, then a jump (R142). -/
theorem exec_call_of_room {s : State} (nnn : Addr12) (h : s.sp.val < 16) :
    exec (.call nnn) s = finish (.jump (zextAddr nnn))
      { s with stack := s.stack.set s.sp.val (s.pc + 2), sp := ⟨s.sp.val + 1, Nat.succ_lt_succ h⟩ } := by
  change execCall nnn s = _
  obtain ⟨-, hfull⟩ | ⟨_, hpush⟩ := push?_cases s (advance 1 s.pc)
  · omega
  · rw [execCall, hpush, advance_one]

/-- CALL with sixteen entries held (R142). -/
theorem exec_call_of_full {s : State} (nnn : Addr12) (h : s.sp.val = 16) :
    exec (.call nnn) s = raiseBounds .stackOverflow s.pc s := by
  change execCall nnn s = _
  obtain ⟨hpush, -⟩ | ⟨hroom, -⟩ := push?_cases s (advance 1 s.pc)
  · rw [execCall, hpush]
  · omega

/-- JP V0, addr (R143). -/
theorem exec_jpV0 (nnn : Addr12) (s : State) :
    exec (.jpV0 nnn) s = finish (.jump (zextAddr nnn + zextByte s.v[0])) s :=
  rfl

/-- The sum of JP V0 does not wrap (R143). -/
theorem toNat_indexedTarget (nnn : Addr12) (b : Byte) : (zextAddr nnn + zextByte b).toNat = nnn.toNat + b.toNat := by
  have := nnn.isLt
  have := b.isLt
  rw [BitVec.toNat_add, toNat_zextAddr, toNat_zextByte]
  omega

/-- The largest target of JP V0 is 0xFFF + 0xFF (R25, R143). -/
theorem indexedTarget_le (nnn : Addr12) (b : Byte) : (zextAddr nnn + zextByte b).toNat ≤ 0x10FE := by
  have := nnn.isLt
  have := b.isLt
  rw [toNat_indexedTarget]
  omega

/-! ### The ALU -/

/-- ADD Vx, byte (R161). -/
theorem exec_addByte (x : Reg) (kk : Byte) (s : State) :
    exec (.addByte x kk) s = finish .next (s.setV x (s.v[x.val] + kk)) :=
  rfl

/-- OR (R163). -/
theorem exec_orReg (x y : Reg) (s : State) :
    exec (.orReg x y) s = finish .next (s.setV x (s.v[x.val] ||| s.v[y.val])) :=
  rfl

/-- AND (R164). -/
theorem exec_andReg (x y : Reg) (s : State) :
    exec (.andReg x y) s = finish .next (s.setV x (s.v[x.val] &&& s.v[y.val])) :=
  rfl

/-- XOR (R165). -/
theorem exec_xorReg (x y : Reg) (s : State) :
    exec (.xorReg x y) s = finish .next (s.setV x (s.v[x.val] ^^^ s.v[y.val])) :=
  rfl

/-- ADD Vx, Vy (R166). -/
theorem exec_addReg (x y : Reg) (s : State) :
    exec (.addReg x y) s = finish .next (writeFlagged x (addFlag s.v[x.val] s.v[y.val]) s) :=
  rfl

/-- SUB: minuend Vx (R167). -/
theorem exec_sub (x y : Reg) (s : State) :
    exec (.sub x y) s = finish .next (writeFlagged x (subFlag s.v[x.val] s.v[y.val]) s) :=
  rfl

/-- SHR: y is not read (R168; D10). -/
theorem exec_shr (x y : Reg) (s : State) :
    exec (.shr x y) s = finish .next (writeFlagged x (shrFlag s.v[x.val]) s) :=
  rfl

/-- SUBN: minuend Vy (R169). -/
theorem exec_subn (x y : Reg) (s : State) :
    exec (.subn x y) s = finish .next (writeFlagged x (subFlag s.v[y.val] s.v[x.val]) s) :=
  rfl

/-- SHL: y is not read (R170; D10). -/
theorem exec_shl (x y : Reg) (s : State) :
    exec (.shl x y) s = finish .next (writeFlagged x (shlFlag s.v[x.val]) s) :=
  rfl

/-- RND (R171). -/
theorem exec_rnd (x : Reg) (kk : Byte) (s : State) :
    exec (.rnd x kk) s = finish .next (s.setV x (s.rnd &&& kk)).sampled :=
  rfl

/-! ### The index register and memory -/

/-- ADD I, Vx (R181). -/
theorem exec_addI (x : Reg) (s : State) : exec (.addI x) s = finish .next (s.setI (s.i + zextByte s.v[x.val])) :=
  rfl

/-- LD F, Vx with Vx the number of a glyph (R182). -/
theorem exec_ldF_of_glyph {s : State} {x : Reg} {g : Fin 16} (h : s.v[x.val].toNat = g.val) :
    exec (.ldF x) s = finish .next (s.setI (glyphAddr g)) := by
  have hglyph : index? Config.glyphCount (s.getV x) = some g := index?_eq_some h
  change execLdF x s = _
  rw [execLdF, hglyph]

/-- LD F, Vx with Vx above 15 (R182; D16). -/
theorem exec_ldF_of_no_glyph {s : State} {x : Reg} (h : 15 < s.v[x.val].toNat) :
    exec (.ldF x) s = raiseBounds .glyphIndexOutOfRange (zextByte s.v[x.val]) s := by
  have hnone : index? Config.glyphCount (s.getV x) = none := index?_eq_none h
  change execLdF x s = _
  rw [execLdF, hnone]
  rfl

/-- LD B, Vx: three bytes at I (R183). -/
theorem exec_ldB (x : Reg) (s : State) :
    exec (.ldB x) s =
      guardBlock s.i.toNat 3 s (finish .next (s.storeBytes s.i.toNat (bcdDigits s.v[x.val]))) :=
  rfl

/-- LD [I], Vx: x + 1 bytes at I (R184). -/
theorem exec_storeRegs (x : Reg) (s : State) :
    exec (.storeRegs x) s =
      guardBlock s.i.toNat (x.val + 1) s (finish .next (s.storeBytes s.i.toNat (regBlock s x))) :=
  rfl

/-- LD Vx, [I]: x + 1 bytes at I (R185). -/
theorem exec_loadRegs (x : Reg) (s : State) :
    exec (.loadRegs x) s = guardBlock s.i.toNat (x.val + 1) s (finish .next (s.fillRegs x s.i.toNat)) :=
  rfl

/-! ### The display and the keypad -/

/-- What DRW leaves when its rows lie in memory, before the pc moves on (R191, R195). -/
def drawnState (x y : Reg) (n : Nibble) (s : State) : State :=
  ((s.setFb (drawn x y n s).fb).setFlag (drawn x y n s).collision).setReport
    ⟨(drawn x y n s).changed, (drawn x y n s).collision⟩

/-- DRW: n bytes at I (R191). -/
theorem exec_drw (x y : Reg) (n : Nibble) (s : State) :
    exec (.drw x y n) s = guardBlock s.i.toNat n.toNat s (finish .next (drawnState x y n s)) :=
  rfl

/-- SKP with Vx the number of a key (R213). -/
theorem exec_skp_of_key {s : State} {x : Reg} {k : Key} (h : s.v[x.val].toNat = k.val) :
    exec (.skp x) s = skipIf s.keys[k.val] s := by
  have hkey : index? Config.numKeys (s.getV x) = some k := index?_eq_some h
  change execSkp x s = _
  rw [execSkp, hkey, skipIf]

/-- SKP with Vx above 15 (R213; D17). -/
theorem exec_skp_of_no_key {s : State} {x : Reg} (h : 15 < s.v[x.val].toNat) :
    exec (.skp x) s = raiseBounds .keyIndexOutOfRange (zextByte s.v[x.val]) s := by
  have hnone : index? Config.numKeys (s.getV x) = none := index?_eq_none h
  change execSkp x s = _
  rw [execSkp, hnone]
  rfl

/-- SKNP with Vx the number of a key: a skip on the opposite condition (R214). -/
theorem exec_sknp_of_key {s : State} {x : Reg} {k : Key} (h : s.v[x.val].toNat = k.val) :
    exec (.sknp x) s = skipIf (!s.keys[k.val]) s := by
  have hkey : index? Config.numKeys (s.getV x) = some k := index?_eq_some h
  change execSknp x s = _
  rw [execSknp, hkey, skipIf]
  cases hflag : s.keys[k.val] <;> simp [hflag]

/-- SKNP with Vx above 15 (R214; D17). -/
theorem exec_sknp_of_no_key {s : State} {x : Reg} (h : 15 < s.v[x.val].toNat) :
    exec (.sknp x) s = raiseBounds .keyIndexOutOfRange (zextByte s.v[x.val]) s := by
  have hnone : index? Config.numKeys (s.getV x) = none := index?_eq_none h
  change execSknp x s = _
  rw [execSknp, hnone]
  rfl

end Sys2Proof.Machine

/-! PROOFS. What an instruction and a tick can do, said once; every claim about the whole machine is read off from it. -/

namespace Sys2Proof.Machine

/-! ### What an instruction can do -/

/-- The instruction stores a block of `n` bytes at I: LD B, Vx or LD [I], Vx (R183, R184). -/
def StoresBlock (i : Instr) (n : Nat) : Prop :=
  (∃ x, i = .ldB x ∧ n = 3) ∨ ∃ x : Reg, i = .storeRegs x ∧ n = x.val + 1

/-- The instruction writes VF: as a flag, or because VF is its destination (R23, R26). -/
def WritesVF (i : Instr) : Prop :=
  (∃ x y, i = .addReg x y ∨ i = .sub x y ∨ i = .shr x y ∨ i = .subn x y ∨ i = .shl x y) ∨
  (∃ x y n, i = .drw x y n) ∨
  (∃ kk, i = .ldByte 15 kk ∨ i = .addByte 15 kk ∨ i = .rnd 15 kk) ∨
  (∃ y, i = .ldReg 15 y ∨ i = .orReg 15 y ∨ i = .andReg 15 y ∨ i = .xorReg 15 y) ∨
  i = .ldVxDt 15 ∨ i = .ldVxK 15 ∨ i = .loadRegs 15

/-- A jump goes to an address of at most 0x10FE, the largest nnn + V0, or to a return address on the stack (R25, R140 to
R143). -/
def PcOutcome.Lands (s : State) : PcOutcome → Prop
  | .jump a => a.toNat ≤ 0x10FE ∨ ∃ k : Fin 16, a = s.stack[k.val]
  | _ => True

/-- What the body of instruction `i` may do to `s` before the pc outcome `o` is applied, field by field: by default a field
stays as it is. -/
structure Body (i : Instr) (s : State) (o : PcOutcome) (t : State) : Prop where
  pc : t.pc = s.pc := by rfl
  fault : t.fault = s.fault := by rfl
  keys : t.keys = s.keys := by rfl
  curKey : t.curKey = s.curKey := by rfl
  rndPort : t.rndPort = s.rndPort := by rfl
  vf : t.v[15] = s.v[15] ∨ WritesVF i := by exact .inl rfl
  fb : t.fb = s.fb ∨ i = .cls ∨ ∃ x y n, i = .drw x y n := by exact .inl rfl
  sp : t.sp = s.sp ∨ i = .ret ∨ ∃ nnn, i = .call nnn := by exact .inl rfl
  stack : t.stack = s.stack ∨ ∃ nnn, i = .call nnn ∧ ∃ k : Fin 16, t.stack = s.stack.set k.val (s.pc + 2) := by
    exact .inl rfl
  mem : t.mem = s.mem ∨
      ∃ bs, StoresBlock i bs.length ∧ s.i.toNat + bs.length ≤ 4096 ∧ t.mem = s.mem.writeList s.i.toNat bs := by
    exact .inl rfl
  lands : o.Lands s := by exact True.intro

/-- The answers an instruction can give: it finishes with a pc outcome, or it takes a bounds violation (R124, R238). -/
inductive Answers (i : Instr) (s : State) : Answer → Prop
  | finishes {o : PcOutcome} {t : State} (body : Body i s o t) : Answers i s (finish o t)
  | raises (kind : BoundsKind) (info : Word) : Answers i s (raiseBounds kind info s)

/-- A skip finishes with one of two outcomes and writes nothing. -/
theorem Answers.skipIf (i : Instr) (s : State) (c : Bool) : Answers i s (skipIf c s) := by
  cases c with
  | true => exact .finishes (o := .skip) {}
  | false => exact .finishes (o := .next) {}

/-- A block transfer finishes where its block lies in memory, and takes a bounds violation where it does not. -/
theorem Answers.guardBlock {i : Instr} {s : State} {first count : Nat} {ok : Answer}
    (h : first + count ≤ 4096 ∨ count = 0 → Answers i s ok) : Answers i s (guardBlock first count s ok) := by
  obtain ⟨hok, hin⟩ | ⟨hraise, -⟩ := guardBlock_cases first count s ok
  · rw [hok]
    exact h hin
  · rw [hraise]
    exact .raises _ _

theorem vf_set (v : Vector Byte Config.numV) (x : Reg) (b : Byte) : (v.set x.val b)[15] = v[15] ∨ x = 15 := by
  by_cases h : x.val = 15
  · exact .inr (Fin.ext h)
  · exact .inl (Vector.getElem_set_ne _ _ h)

theorem vf_fillRegs (s : State) (x : Reg) (a : Nat) : (s.fillRegs x a).v[15] = s.v[15] ∨ x = 15 := by
  have hvf : (s.fillRegs x a).v[15] = if (15 : Reg) ≤ x then s.mem.read (a + 15) else s.v[15] :=
    State.getV_fillRegs s x 15 a
  by_cases h : (15 : Reg) ≤ x
  · exact .inr (Fin.ext (Nat.le_antisymm (Nat.le_of_lt_succ x.isLt) h))
  · exact .inl (by rw [hvf, if_neg h])

/-- An instruction that writes registers alone and goes on. -/
theorem Answers.writeRegs {i : Instr} {s : State} (v : Vector Byte Config.numV) (h : v[15] = s.v[15] ∨ WritesVF i) :
    Answers i s (finish .next { s with v := v }) :=
  .finishes { vf := h }

/-- An instruction that writes one register and goes on. -/
theorem Answers.setV {i : Instr} {s : State} (x : Reg) (b : Byte) (h : x = 15 → WritesVF i) :
    Answers i s (finish .next (s.setV x b)) :=
  .writeRegs _ ((vf_set s.v x b).imp_right h)

/-- An instruction that writes a result and its flag and goes on. -/
theorem Answers.writeFlagged {i : Instr} {s : State} (x : Reg) (r : Byte × Bool) (h : WritesVF i) :
    Answers i s (finish .next (writeFlagged x r s)) :=
  .writeRegs _ (.inr h)

theorem zextAddr_lands (s : State) (nnn : Addr12) : (PcOutcome.jump (zextAddr nnn)).Lands s := by
  have := nnn.isLt
  refine .inl ?_
  rw [toNat_zextAddr]
  omega

theorem indexedTarget_lands (s : State) (nnn : Addr12) (b : Byte) :
    (PcOutcome.jump (zextAddr nnn + zextByte b)).Lands s :=
  .inl (indexedTarget_le nnn b)

/-- Everything an instruction can do. -/
theorem exec_answers (i : Instr) (s : State) : Answers i s (exec i s) := by
  cases i with
  | cls => exact .finishes { fb := .inr (.inl rfl) }
  | ret =>
    by_cases h : 0 < s.sp.val
    · rw [exec_ret_of_held h]
      exact .finishes { sp := .inr (.inl rfl), lands := .inr ⟨⟨s.sp.val - 1, by have := s.sp_le; omega⟩, rfl⟩ }
    · rw [exec_ret_of_empty (by omega)]
      exact .raises _ _
  | jp nnn => exact .finishes { lands := zextAddr_lands s nnn }
  | call nnn =>
    by_cases h : s.sp.val < 16
    · rw [exec_call_of_room nnn h]
      exact .finishes
        { sp := .inr (.inr ⟨nnn, rfl⟩), stack := .inr ⟨nnn, rfl, ⟨s.sp.val, h⟩, rfl⟩, lands := zextAddr_lands s nnn }
    · rw [exec_call_of_full nnn (by have := s.sp_le; omega)]
      exact .raises _ _
  | seByte x kk => exact .skipIf _ s _
  | sneByte x kk => exact .skipIf _ s _
  | seReg x y => exact .skipIf _ s _
  | sneReg x y => exact .skipIf _ s _
  | ldByte x kk => exact .setV x _ (by rintro rfl; simp [WritesVF])
  | addByte x kk => exact .setV x _ (by rintro rfl; simp [WritesVF])
  | ldReg x y => exact .setV x _ (by rintro rfl; simp [WritesVF])
  | orReg x y => exact .setV x _ (by rintro rfl; simp [WritesVF])
  | andReg x y => exact .setV x _ (by rintro rfl; simp [WritesVF])
  | xorReg x y => exact .setV x _ (by rintro rfl; simp [WritesVF])
  | addReg x y => exact .writeFlagged x _ (by simp [WritesVF])
  | sub x y => exact .writeFlagged x _ (by simp [WritesVF])
  | shr x y => exact .writeFlagged x _ (by simp [WritesVF])
  | subn x y => exact .writeFlagged x _ (by simp [WritesVF])
  | shl x y => exact .writeFlagged x _ (by simp [WritesVF])
  | ldI nnn => exact .finishes {}
  | jpV0 nnn => exact .finishes { lands := indexedTarget_lands s nnn s.v[0] }
  | rnd x kk => exact .finishes { vf := (vf_set s.v x _).imp_right (by rintro rfl; simp [WritesVF]) }
  | drw x y n =>
    rw [exec_drw]
    exact .guardBlock fun _ => .finishes { vf := .inr (by simp [WritesVF]), fb := .inr (.inr ⟨x, y, n, rfl⟩) }
  | skp x =>
    by_cases h : s.v[x.val].toNat < 16
    · rw [exec_skp_of_key (k := ⟨s.v[x.val].toNat, h⟩) rfl]
      exact .skipIf _ s _
    · rw [exec_skp_of_no_key (by omega)]
      exact .raises _ _
  | sknp x =>
    by_cases h : s.v[x.val].toNat < 16
    · rw [exec_sknp_of_key (k := ⟨s.v[x.val].toNat, h⟩) rfl]
      exact .skipIf _ s _
    · rw [exec_sknp_of_no_key (by omega)]
      exact .raises _ _
  | ldVxDt x => exact .setV x _ (by rintro rfl; simp [WritesVF])
  | ldVxK x =>
    cases hrecord : s.curKey with
    | none =>
      rw [exec_ldVxK_of_unrecorded x hrecord]
      exact .finishes {}
    | some k =>
      rw [exec_ldVxK_of_recorded x hrecord]
      exact .setV x _ (by rintro rfl; simp [WritesVF])
  | ldDtVx x => exact .finishes {}
  | ldStVx x => exact .finishes {}
  | addI x => exact .finishes {}
  | ldF x =>
    by_cases h : s.v[x.val].toNat < 16
    · rw [exec_ldF_of_glyph (g := ⟨s.v[x.val].toNat, h⟩) rfl]
      exact .finishes {}
    · rw [exec_ldF_of_no_glyph (by omega)]
      exact .raises _ _
  | ldB x =>
    rw [exec_ldB]
    exact .guardBlock fun hin => .finishes
      { mem := .inr ⟨bcdDigits s.v[x.val], .inl ⟨x, rfl, rfl⟩, by rw [length_bcdDigits]; omega, rfl⟩ }
  | storeRegs x =>
    rw [exec_storeRegs]
    exact .guardBlock fun hin => .finishes
      { mem := .inr ⟨regBlock s x, .inr ⟨x, rfl, length_regBlock s x⟩, by rw [length_regBlock]; omega, rfl⟩ }
  | loadRegs x =>
    rw [exec_loadRegs]
    exact .guardBlock fun _ => .writeRegs _ ((vf_fillRegs s x _).imp_right (by rintro rfl; simp [WritesVF]))

/-- The next state of an instruction, by what it answers. -/
theorem Answers.next {i : Instr} {s : State} {a : Answer} (h : Answers i s a) :
    ∃ t, a = .next t ∧
      ((∃ o u, Body i s o u ∧ t = { u with pc := o.apply u.pc, status := .ok }) ∨
        ∃ kind info, t = violated kind info s) := by
  cases h with
  | @finishes o u body => exact ⟨_, finish_eq o u, .inl ⟨o, u, body, rfl⟩⟩
  | raises kind info => exact ⟨_, raiseBounds_eq kind info s, .inr ⟨kind, info, rfl⟩⟩

/-! ### What a tick can do -/

theorem fetchInRange_iff (s : State) : fetchInRange s = true ↔ s.pc.toNat + 1 ≤ 0xFFF :=
  decide_eq_true_iff

/-- The ways a tick can end (R121): the core was halted; a bounds violation was taken, at the fetch or by the instruction;
the word decoded to nothing; or an instruction finished. -/
inductive Ticks (s : State) : State → Prop
  | halted {l : Latch} (hlatched : s.fault = some l) : Ticks s { s with status := .boundsViolation l s.pc }
  | violated (hrunning : s.fault = none) (kind : BoundsKind) (info : Word) :
      Ticks s (violated kind info (tickStart s))
  | undecoded (hrunning : s.fault = none) (hrange : s.pc.toNat + 1 ≤ 0xFFF) (w : Word) :
      Ticks s { tickStart s with pc := s.pc + 2, status := .decodeFailure w s.pc }
  | finished {i : Instr} {o : PcOutcome} {t : State} (hexec : executes s i) (body : Body i (tickStart s) o t) :
      Ticks s { t with pc := o.apply t.pc, status := .ok }

theorem step_of_latched {s : State} {l : Latch} (h : s.fault = some l) :
    step s = .next { s with status := .boundsViolation l s.pc } := by
  have hhalted : step s = haltedTick l s := by rw [step, h]
  exact hhalted

theorem step_of_outOfRange {s : State} (hrunning : s.fault = none) (h : ¬ s.pc.toNat + 1 ≤ 0xFFF) :
    step s = .next (violated .fetchOutOfRange s.pc (tickStart s)) := by
  have hrange : ¬ fetchInRange (tickStart s) = true := fun hin => h ((fetchInRange_iff _).mp hin)
  rw [step_eq_fetchExecute hrunning, fetchExecute, if_neg hrange]
  rfl

theorem step_of_undecoded {s : State} (hrunning : s.fault = none) (h : s.pc.toNat + 1 ≤ 0xFFF)
    (hnone : decodeWord (fetched s) = none) :
    step s = .next { tickStart s with pc := s.pc + 2, status := .decodeFailure (fetched s) s.pc } := by
  have hrange : fetchInRange (tickStart s) = true := (fetchInRange_iff _).mpr h
  have hword : decodeWord (fetchWord (tickStart s)) = none := hnone
  rw [step_eq_fetchExecute hrunning, fetchExecute, if_pos hrange, hword]
  rfl

theorem step_of_executes {s : State} {i : Instr} (h : executes s i) : step s = exec i (tickStart s) := by
  obtain ⟨hrunning, hin, hdecode⟩ := h
  have hrange : fetchInRange (tickStart s) = true := (fetchInRange_iff _).mpr hin
  have hword : decodeWord (fetchWord (tickStart s)) = some i := hdecode
  rw [step_eq_fetchExecute hrunning, fetchExecute, if_pos hrange, hword]

/-- Everything a tick can do. -/
theorem step_ticks (s : State) : ∃ t, step s = .next t ∧ Ticks s t := by
  cases hfault : s.fault with
  | some l => exact ⟨_, step_of_latched hfault, .halted hfault⟩
  | none =>
    by_cases hrange : s.pc.toNat + 1 ≤ 0xFFF
    · cases hdecode : decodeWord (fetched s) with
      | none => exact ⟨_, step_of_undecoded hfault hrange hdecode, .undecoded hfault hrange _⟩
      | some i =>
        have hexec : executes s i := ⟨hfault, hrange, hdecode⟩
        rw [step_of_executes hexec]
        obtain ⟨t, ht, ⟨o, u, body, rfl⟩ | ⟨kind, info, rfl⟩⟩ := (exec_answers i (tickStart s)).next
        · exact ⟨_, ht, .finished hexec body⟩
        · exact ⟨_, ht, .violated hfault kind info⟩
    · exact ⟨_, step_of_outOfRange hfault hrange, .violated hfault _ _⟩

theorem ticks_of_step {s t : State} (h : step s = .next t) : Ticks s t := by
  obtain ⟨t', hstep, hticks⟩ := step_ticks s
  obtain rfl : t' = t := eq_of_next hstep h
  exact hticks

end Sys2Proof.Machine

/-! PROOFS. Reset, program load, the frame query and the status port (70_reset_and_hazards.md, 60_exceptions.md R235). -/

namespace Sys2Proof.Machine

/-- Settles O6: each field of `State.reset` is the constant of the power-on column, the vectors by their replicated entry. -/
theorem resetRegistersAndOutputs : Obligations.ResetRegistersAndOutputs := by
  refine ⟨fun x => ?v, rfl, rfl, rfl, rfl, rfl, fun k => ?stack, fun k => ?keys, rfl, ?fb, rfl, rfl, rfl⟩
  case v => exact Vector.getElem_replicate x.isLt
  case stack => exact Vector.getElem_replicate k.isLt
  case keys => exact Vector.getElem_replicate k.isLt
  case fb => exact FrameBuffer.pixel_blank

/-- The font's bytes stand from FONT_BASE on (R31). -/
theorem Mem.unlisted_font {a : Nat} (h : a < Config.fontLen) :
    Mem.unlisted (Config.fontBase + a) = Config.fontData.getD a 0 := by
  rw [Mem.unlisted, if_pos ⟨Nat.le_add_right _ _, Nat.add_lt_add_left h _⟩, Nat.add_sub_cancel_left]

/-- Outside the font memory after reset is zero (R47). -/
theorem Mem.unlisted_outside {a : Nat} (h : a < Config.fontBase ∨ Config.fontBase + Config.fontLen ≤ a) :
    Mem.unlisted a = 0 := by
  rw [Mem.unlisted, if_neg (by omega)]

/-- Settles O7: nothing is listed at reset, so every address reads as the font or as zero. -/
theorem resetMemoryIsFontThenZero : Obligations.ResetMemoryIsFontThenZero := by
  refine ⟨Config.length_fontData, fun a h => ?font, Config.font_in_region, fun a _ houtside => ?zero⟩
  case font => exact (Mem.unlisted_font h).trans (List.getD_eq_getElem _ _ h)
  case zero => exact Mem.unlisted_outside houtside

/-- Settles O8: the operation is the reset state with the key state, and the model's own input fields, put back. -/
theorem resetOperationKeepsOnlyTheKeys : Obligations.ResetOperationKeepsOnlyTheKeys := by
  intro s
  refine ⟨⟨s.resetOp_v, s.resetOp_i, s.resetOp_pc, s.resetOp_dt, s.resetOp_st, s.resetOp_sp, s.resetOp_stack, s.resetOp_fb,
    fun a => ?memory, s.resetOp_fault, s.resetOp_status, s.resetOp_blitReport⟩, s.resetOp_keys, s.resetOp_curKey, ?powerOn⟩
  case memory => rw [s.resetOp_mem]
  case powerOn => rfl

/-! ### Program load -/

/-- A program that fits is stored at 0x200 after a reset (R264). -/
theorem State.load_of_fits (s : State) {bytes : List Byte} (h : bytes.length ≤ 3584) :
    s.load bytes = s.resetOp.storeBytes 0x200 bytes :=
  if_neg (Nat.not_lt.mpr h)

/-- A program that does not fit latches LoadTooLong after a reset (D25). -/
theorem State.load_of_too_long (s : State) {bytes : List Byte} (h : 3584 < bytes.length) :
    s.load bytes = violated .loadTooLong (BitVec.ofNat 16 (min bytes.length 0xFFFF)) s.resetOp :=
  if_pos h

/-- Settles O9: a fitting program is one run of stores that ends inside memory, so the read-after-store law gives every
byte. -/
theorem loadPlacesProgramOrLatches : Obligations.LoadPlacesProgramOrLatches := by
  intro s bytes
  refine ⟨fun hfits => ?fits, fun hlong => s.load_of_too_long hlong⟩
  have hread (a : Nat) : (s.load bytes).mem.read a =
      if 0x200 ≤ a then (bytes[a - 0x200]?).getD (State.reset.mem.read a) else State.reset.mem.read a := by
    have hinside : 0x200 + bytes.length ≤ Config.memSize := by
      simp only [Config.memSize]
      omega
    rw [s.load_of_fits hfits, State.storeBytes_mem, Mem.read_writeList _ _ _ _ hinside, State.resetOp_mem]
  refine ⟨fun j hj => ?program, fun a houtside => ?rest, ?frame⟩
  case program =>
    rw [hread, if_pos (Nat.le_add_right _ _), Nat.add_sub_cancel_left, List.getElem?_eq_getElem hj, Option.getD_some]
  case rest =>
    rw [hread]
    split
    · rw [List.getElem?_eq_none (by omega), Option.getD_none]
    · rfl
  case frame =>
    rw [s.load_of_fits hfits]
    rfl

/-! ### Queries -/

/-- Settles O13: the single query tests the two ranges and reads the cell; the bulk query is the framebuffer. -/
theorem pixelQueryReadsTheCell : Obligations.PixelQueryReadsTheCell := by
  intro s row col
  refine ⟨fun hr hc => ⟨?single, rfl⟩, fun houtside => ?outside⟩
  case single => exact dif_pos ⟨hr, hc⟩
  case outside => exact dif_neg houtside

/-- Settles O14: the port of each status is a table entry, and the status after a load that is too long is LoadTooLong at the
pc of the reset. -/
theorem statusPortCarriesTheCodes : Obligations.StatusPortCarriesTheCodes := by
  refine ⟨rfl, fun w p => rfl, fun info p => rfl, fun s bytes hlong => ?load⟩
  case load =>
    rw [s.load_of_too_long hlong]
    rfl

end Sys2Proof.Machine

/-! PROOFS. The tick (40_cycle.md) and the claims about the whole machine, each read off from the ways a tick can end. -/

namespace Sys2Proof.Machine

/-! ### The phases of the tick -/

/-- The countdown as the statements write it is the model's (R121, R200). -/
theorem afterCountdown_eq (s : State) : afterCountdown s = tickStart s := by
  have hcount (t : Byte) : BitVec.ofNat 8 (t.toNat - 1) = countDown t := by
    rw [← toNat_countDown, BitVec.ofNat_toNat, BitVec.setWidth_eq]
  rw [afterCountdown, hcount, hcount]
  rfl

/-- Settles O15: the range check and the fetch find the instruction, and nothing is done around it. -/
theorem stepRunsTheDecodedInstruction : Obligations.StepRunsTheDecodedInstruction := by
  intro s i h
  rw [afterCountdown_eq]
  exact step_of_executes h

/-- Settles O17: a halted core answers its latch, which in a consistent state is the status already. -/
theorem haltedTickChangesNothing : Obligations.HaltedTickChangesNothing := by
  intro s l hlatched
  refine ⟨step_of_latched hlatched, fun hconsistent => ?_⟩
  obtain ⟨hstatus, -⟩ := hconsistent.latched l hlatched
  rw [step_of_latched hlatched, ← hstatus]

/-- Settles O18: the range check comes before the fetch and after the countdown. -/
theorem fetchOutOfRangeIsTaken : Obligations.FetchOutOfRangeIsTaken := by
  intro s hrunning houtside
  rw [afterCountdown_eq]
  exact step_of_outOfRange hrunning (Nat.not_le.mpr houtside)

/-- Settles O19: a word no row matches takes the decode failure. -/
theorem decodeFailureAdvancesAndReports : Obligations.DecodeFailureAdvancesAndReports := by
  intro s hrunning hrange hnone
  rw [afterCountdown_eq]
  exact step_of_undecoded hrunning hrange hnone

/-! ### Every step is answered, and violations are precise -/

/-- Settles O48: an instruction finishes or takes a violation, and both are next states. -/
theorem everyTickAnswersANextState : Obligations.EveryTickAnswersANextState := by
  refine ⟨fun i s => ?instruction, fun s => ?tick⟩
  case instruction =>
    obtain ⟨t, hexec, -⟩ := (exec_answers i s).next
    exact ⟨t, hexec⟩
  case tick =>
    obtain ⟨t, hstep, -⟩ := step_ticks s
    exact ⟨t, hstep⟩

/-- Settles O49: of the ways a tick of a running core can end only the violation sets the latch, and it changes nothing
else. -/
theorem boundsViolationIsPrecise : Obligations.BoundsViolationIsPrecise := by
  intro s t l hrunning hstep hlatched
  rw [afterCountdown_eq]
  cases ticks_of_step hstep with
  | halted hhalted => simp [hrunning] at hhalted
  | violated _ kind info =>
    obtain rfl : ⟨kind, info⟩ = l := Option.some_inj.mp hlatched
    rfl
  | undecoded => simp [hrunning] at hlatched
  | finished _ body => simp [body.fault, hrunning] at hlatched

/-- Settles O50: a tick of a halted core keeps the latch, and a key event does not touch it. -/
theorem latchClearedOnlyByResetOrLoad : Obligations.LatchClearedOnlyByResetOrLoad := by
  intro m s t l hlatched hmove
  cases m with
  | tick b =>
    have hhalted : (s.driveRnd b).fault = some l := hlatched
    obtain rfl := eq_of_next (step_of_latched hhalted) hmove
    exact .inl hlatched
  | reset => exact .inr (.inl rfl)
  | load bytes => exact .inr (.inr ⟨bytes, rfl⟩)
  | keyDown k =>
    obtain rfl := Host.Outcome.next.inj hmove
    exact .inl hlatched
  | keyUp k =>
    obtain rfl := Host.Outcome.next.inj hmove
    exact .inl hlatched

/-! ### The invariant `Consistent` -/

/-- A running core is consistent if its memory is canonical and its status is no violation. -/
theorem Consistent.of_running {s : State} (hmem : s.mem.wf) (hrunning : s.fault = none)
    (hstatus : ∀ l p, s.status ≠ .boundsViolation l p) : Consistent s where
  memWf := hmem
  latched l hl := by simp [hrunning] at hl
  unlatched _ := hstatus

/-- Taking a violation with the report empty leaves a consistent state. -/
theorem Consistent.of_violated {s : State} (hmem : s.mem.wf) (hreport : s.blitReport = .empty) (kind : BoundsKind)
    (info : Word) : Consistent (violated kind info s) where
  memWf := hmem
  latched l hl := by
    obtain rfl : ⟨kind, info⟩ = l := Option.some_inj.mp hl
    exact ⟨rfl, hreport⟩
  unlatched hrunning := nomatch hrunning

/-- An instruction keeps memory canonical: it stores a block or nothing. -/
theorem Body.mem_wf {i : Instr} {s t : State} {o : PcOutcome} (body : Body i s o t) (h : s.mem.wf) : t.mem.wf := by
  obtain hsame | ⟨bs, -, -, hstored⟩ := body.mem
  · rw [hsame]
    exact h
  · rw [hstored]
    exact Mem.wf_writeList bs h _

/-- Settles O51, by the ways a tick can end. -/
theorem stepKeepsConsistent : Obligations.StepKeepsConsistent := by
  intro s t hs hstep
  cases ticks_of_step hstep with
  | halted hlatched =>
    obtain ⟨hstatus, -⟩ := hs.latched _ hlatched
    rw [← hstatus]
    exact hs
  | violated _ kind info => exact .of_violated (s := tickStart s) hs.memWf rfl kind info
  | undecoded hrunning => exact .of_running hs.memWf hrunning nofun
  | finished hexec body =>
    obtain ⟨hrunning, -, -⟩ := hexec
    exact .of_running (body.mem_wf hs.memWf) (body.fault.trans hrunning) nofun

theorem consistent_resetOp (s : State) : Consistent s.resetOp :=
  .of_running Mem.wf_reset rfl nofun

theorem consistent_load (s : State) (bytes : List Byte) : Consistent (s.load bytes) := by
  by_cases h : bytes.length ≤ 3584
  · rw [s.load_of_fits h]
    exact .of_running (Mem.wf_writeList bytes Mem.wf_reset _) rfl nofun
  · rw [s.load_of_too_long (Nat.not_le.mp h)]
    exact .of_violated (s := s.resetOp) Mem.wf_reset rfl _ _

/-- Settles O52. A tick keeps the invariant by O51, a reset and a load establish it, and a key event touches no field it
speaks of. -/
theorem hostMovesKeepConsistent : Obligations.HostMovesKeepConsistent := by
  intro m s t hs hmove
  cases m with
  | tick b => exact stepKeepsConsistent (s.driveRnd b) t ⟨hs.memWf, hs.latched, hs.unlatched⟩ hmove
  | reset =>
    obtain rfl := Host.Outcome.next.inj hmove
    exact consistent_resetOp s
  | load bytes =>
    obtain rfl := Host.Outcome.next.inj hmove
    exact consistent_load s bytes
  | keyDown k =>
    obtain rfl := Host.Outcome.next.inj hmove
    exact ⟨hs.memWf, hs.latched, hs.unlatched⟩
  | keyUp k =>
    obtain rfl := Host.Outcome.next.inj hmove
    exact ⟨hs.memWf, hs.latched, hs.unlatched⟩

/-! ### The invariant `PcBounded` -/

theorem toNat_add_two {pc : Word} (h : pc.toNat + 1 ≤ 0xFFF) : (pc + 2).toNat = pc.toNat + 2 := by
  bv_omega

theorem toNat_add_four {pc : Word} (h : pc.toNat + 1 ≤ 0xFFF) : (pc + 4).toNat = pc.toNat + 4 := by
  bv_omega

/-- From an address the fetch accepts every pc outcome stays within the bound: a skip reaches 0x1002 at most. -/
theorem PcOutcome.apply_le {o : PcOutcome} {s : State} (hs : PcBounded s) (hrange : s.pc.toNat + 1 ≤ 0xFFF)
    (hlands : o.Lands s) : (o.apply s.pc).toNat ≤ 0x10FE := by
  cases o with
  | next =>
    rw [PcOutcome.apply, advance_one, toNat_add_two hrange]
    omega
  | skip =>
    rw [PcOutcome.apply, advance_two, toNat_add_four hrange]
    omega
  | block => exact hs.pc
  | jump a =>
    obtain hle | ⟨k, rfl⟩ := hlands
    · exact hle
    · exact (hs.stack k).trans (by decide)

/-- An instruction keeps the bound on the return addresses: the one a CALL pushes is two above an address the fetch
accepts. -/
theorem Body.stack_le {i : Instr} {s t : State} {o : PcOutcome} (body : Body i s o t) (hs : PcBounded s)
    (hrange : s.pc.toNat + 1 ≤ 0xFFF) (j : Fin 16) : t.stack[j.val].toNat ≤ 0x1000 := by
  obtain hsame | ⟨-, -, k, hpushed⟩ := body.stack
  · rw [hsame]
    exact hs.stack j
  · simp only [hpushed, Vector.getElem_set]
    split
    · rw [toNat_add_two hrange]
      omega
    · exact hs.stack j

/-- Settles O53, by the ways a tick can end. -/
theorem stepKeepsPcBounded : Obligations.StepKeepsPcBounded := by
  intro s t hs hstep
  cases ticks_of_step hstep with
  | halted => exact ⟨hs.pc, hs.stack⟩
  | violated => exact ⟨hs.pc, hs.stack⟩
  | undecoded hrunning hrange => exact ⟨PcOutcome.apply_le (o := .next) hs hrange trivial, hs.stack⟩
  | @finished i o u hexec body =>
    obtain ⟨-, hrange, -⟩ := hexec
    have hs' : PcBounded (tickStart s) := ⟨hs.pc, hs.stack⟩
    refine ⟨?pc, body.stack_le hs' hrange⟩
    case pc =>
      show (o.apply u.pc).toNat ≤ _
      rw [body.pc]
      exact PcOutcome.apply_le hs' hrange body.lands

theorem pcBounded_reset : PcBounded State.reset where
  pc := by decide
  stack := by decide

/-- Settles O55: the reset state is what the reset operation makes of itself, and its pc and stack are constants. -/
theorem resetMeetsTheInvariants : Obligations.ResetMeetsTheInvariants :=
  ⟨consistent_resetOp State.reset, pcBounded_reset⟩

/-- After a load, of whatever length, pc and the stack are those of the reset. -/
theorem pcBounded_load (s : State) (bytes : List Byte) : PcBounded (s.load bytes) := by
  by_cases h : bytes.length ≤ 3584
  · rw [s.load_of_fits h]
    exact ⟨pcBounded_reset.pc, pcBounded_reset.stack⟩
  · rw [s.load_of_too_long (Nat.not_le.mp h)]
    exact ⟨pcBounded_reset.pc, pcBounded_reset.stack⟩

/-- Settles O54. A tick keeps the bounds by O53, a reset and a load establish them, and a key event touches neither pc nor
the stack. -/
theorem hostMovesKeepPcBounded : Obligations.HostMovesKeepPcBounded := by
  intro m s t hs hmove
  cases m with
  | tick b => exact stepKeepsPcBounded (s.driveRnd b) t ⟨hs.pc, hs.stack⟩ hmove
  | reset =>
    obtain rfl := Host.Outcome.next.inj hmove
    exact ⟨pcBounded_reset.pc, pcBounded_reset.stack⟩
  | load bytes =>
    obtain rfl := Host.Outcome.next.inj hmove
    exact pcBounded_load s bytes
  | keyDown k =>
    obtain rfl := Host.Outcome.next.inj hmove
    exact ⟨hs.pc, hs.stack⟩
  | keyUp k =>
    obtain rfl := Host.Outcome.next.inj hmove
    exact ⟨hs.pc, hs.stack⟩

/-! ### Who may write what -/

/-- Settles O56: no way a tick can end touches the keys or the input. -/
theorem tickNeverChangesKeys : Obligations.TickNeverChangesKeys := by
  intro s t hstep
  cases ticks_of_step hstep with
  | halted => exact ⟨rfl, rfl, rfl⟩
  | violated => exact ⟨rfl, rfl, rfl⟩
  | undecoded => exact ⟨rfl, rfl, rfl⟩
  | finished _ body => exact ⟨body.keys, body.curKey, body.rndPort⟩

/-- Settles O57: a tick that runs no instruction to its end touches neither, and an instruction's body says which it is. -/
theorem onlyTheirInstructionsTouchDisplayAndStack : Obligations.OnlyTheirInstructionsTouchDisplayAndStack := by
  intro s t hstep
  cases ticks_of_step hstep with
  | halted => exact ⟨(absurd rfl ·), (absurd rfl ·), (absurd rfl ·)⟩
  | violated => exact ⟨(absurd rfl ·), (absurd rfl ·), (absurd rfl ·)⟩
  | undecoded => exact ⟨(absurd rfl ·), (absurd rfl ·), (absurd rfl ·)⟩
  | finished hexec body =>
    refine ⟨fun hne => ?display, fun hne => ?pointer, fun hne => ?entries⟩
    case display =>
      obtain hsame | rfl | ⟨x, y, n, rfl⟩ := body.fb
      · exact absurd hsame hne
      · exact .inl hexec
      · exact .inr ⟨x, y, n, hexec⟩
    case pointer =>
      obtain hsame | rfl | ⟨nnn, rfl⟩ := body.sp
      · exact absurd hsame hne
      · exact .inl hexec
      · exact .inr ⟨nnn, hexec⟩
    case entries =>
      obtain hsame | ⟨nnn, rfl, -⟩ := body.stack
      · exact absurd hsame hne
      · exact ⟨nnn, hexec⟩

/-- An address whose byte a run of stores changes lies in the stored block. -/
theorem Mem.mem_block_of_read_writeList_ne {m : Mem} {bs : List Byte} {first a : Nat}
    (hinside : first + bs.length ≤ 4096) (h : (m.writeList first bs).read a ≠ m.read a) :
    first ≤ a ∧ a < first + bs.length := by
  rw [Mem.read_writeList bs m first a hinside] at h
  by_contra houtside
  apply h
  split
  · rw [List.getElem?_eq_none (by omega), Option.getD_none]
  · rfl

/-- Settles O58: a changed byte lies in the block an instruction stored. -/
theorem onlyStoresWriteMemory : Obligations.OnlyStoresWriteMemory := by
  intro s t a hstep hne
  cases ticks_of_step hstep with
  | halted => exact absurd rfl hne
  | violated => exact absurd rfl hne
  | undecoded => exact absurd rfl hne
  | @finished i o u hexec body =>
    change u.mem.read a ≠ s.mem.read a at hne
    obtain hsame | ⟨bs, hstores, hinside, hstored⟩ := body.mem
    · exact absurd (congrArg (Mem.read · a) hsame) hne
    · rw [hstored] at hne
      obtain ⟨hfirst, hlast⟩ := Mem.mem_block_of_read_writeList_ne hinside hne
      rw [tickStart_i] at hinside hfirst hlast
      refine ⟨hfirst, by omega, ?_⟩
      obtain ⟨x, rfl, hlen⟩ | ⟨x, rfl, hlen⟩ := hstores
      · exact .inl ⟨x, hexec, by omega⟩
      · exact .inr ⟨x, hexec, by omega⟩

/-- Settles O59: a violation leaves the registers alone, and an instruction's body says whether it writes VF. -/
theorem onlyFlagProducersWriteVFUnasked : Obligations.OnlyFlagProducersWriteVFUnasked := by
  intro i s t hexec hne
  obtain ⟨t', hexec', hcases⟩ := (exec_answers i s).next
  obtain rfl : t' = t := Host.Outcome.next.inj (hexec'.symm.trans hexec)
  obtain ⟨o, u, body, rfl⟩ | ⟨kind, info, rfl⟩ := hcases
  · exact body.vf.resolve_left hne
  · exact absurd rfl hne

/-! ### The random input -/

/-- An answer with its next state's random input driven. -/
def driveAnswer (b : Byte) : Answer → Answer
  | .next t => .next (t.driveRnd b)
  | .fault r => .fault r
  | .refused r => .refused r

theorem guardBlock_driveRnd (first count : Nat) (s : State) (ok : Answer) (b : Byte) :
    guardBlock first count (s.driveRnd b) (driveAnswer b ok) = driveAnswer b (guardBlock first count s ok) := by
  obtain ⟨hok, hin⟩ | ⟨hraise, hout, hcount⟩ := guardBlock_cases first count s ok
  · rw [hok, guardBlock_inside _ _ hin]
  · rw [hraise, guardBlock_outside _ _ hout hcount]
    rfl

/-- No instruction but RND looks at the input: driving a byte on it before or after execution is the same (R172). -/
theorem exec_driveRnd {i : Instr} (hrnd : ∀ x kk, i ≠ .rnd x kk) (s : State) (b : Byte) :
    exec i (s.driveRnd b) = driveAnswer b (exec i s) := by
  cases i with
  | rnd x kk => exact absurd rfl (hrnd x kk)
  | ret =>
    by_cases h : 0 < s.sp.val
    · rw [exec_ret_of_held h, exec_ret_of_held (s := s.driveRnd b) h]
      rfl
    · have hempty : s.sp.val = 0 := by omega
      rw [exec_ret_of_empty hempty, exec_ret_of_empty (s := s.driveRnd b) hempty]
      rfl
  | call nnn =>
    by_cases h : s.sp.val < 16
    · rw [exec_call_of_room nnn h, exec_call_of_room (s := s.driveRnd b) nnn h]
      rfl
    · have hfull : s.sp.val = 16 := by have := s.sp_le; omega
      rw [exec_call_of_full nnn hfull, exec_call_of_full (s := s.driveRnd b) nnn hfull]
      rfl
  | ldF x =>
    by_cases h : s.v[x.val].toNat < 16
    · rw [exec_ldF_of_glyph (s := s) (g := ⟨_, h⟩) rfl, exec_ldF_of_glyph (s := s.driveRnd b) (g := ⟨_, h⟩) rfl]
      rfl
    · have hnone : 15 < s.v[x.val].toNat := by omega
      rw [exec_ldF_of_no_glyph hnone, exec_ldF_of_no_glyph (s := s.driveRnd b) hnone]
      rfl
  | skp x =>
    by_cases h : s.v[x.val].toNat < 16
    · rw [exec_skp_of_key (s := s) (k := ⟨_, h⟩) rfl, exec_skp_of_key (s := s.driveRnd b) (k := ⟨_, h⟩) rfl]
      rfl
    · have hnone : 15 < s.v[x.val].toNat := by omega
      rw [exec_skp_of_no_key hnone, exec_skp_of_no_key (s := s.driveRnd b) hnone]
      rfl
  | sknp x =>
    by_cases h : s.v[x.val].toNat < 16
    · rw [exec_sknp_of_key (s := s) (k := ⟨_, h⟩) rfl, exec_sknp_of_key (s := s.driveRnd b) (k := ⟨_, h⟩) rfl]
      rfl
    · have hnone : 15 < s.v[x.val].toNat := by omega
      rw [exec_sknp_of_no_key hnone, exec_sknp_of_no_key (s := s.driveRnd b) hnone]
      rfl
  | ldVxK x =>
    cases hrecord : s.curKey with
    | none =>
      rw [exec_ldVxK_of_unrecorded x hrecord, exec_ldVxK_of_unrecorded (s := s.driveRnd b) x hrecord]
      rfl
    | some k =>
      rw [exec_ldVxK_of_recorded x hrecord, exec_ldVxK_of_recorded (s := s.driveRnd b) x hrecord]
      rfl
  | drw x y n =>
    rw [exec_drw x y n s, ← guardBlock_driveRnd]
    rfl
  | ldB x =>
    rw [exec_ldB x s, ← guardBlock_driveRnd]
    rfl
  | storeRegs x =>
    rw [exec_storeRegs x s, ← guardBlock_driveRnd]
    rfl
  | loadRegs x =>
    rw [exec_loadRegs x s, ← guardBlock_driveRnd]
    rfl
  | _ => rfl

/-- The same of a whole tick that does not execute RND. -/
theorem step_driveRnd {s : State} (hrnd : ∀ x kk, ¬ executes s (.rnd x kk)) (b : Byte) :
    step (s.driveRnd b) = driveAnswer b (step s) := by
  cases hfault : s.fault with
  | some l =>
    rw [step_of_latched hfault, step_of_latched (s := s.driveRnd b) hfault]
    rfl
  | none =>
    by_cases hrange : s.pc.toNat + 1 ≤ 0xFFF
    · cases hdecode : decodeWord (fetched s) with
      | none =>
        rw [step_of_undecoded hfault hrange hdecode, step_of_undecoded (s := s.driveRnd b) hfault hrange hdecode]
        rfl
      | some i =>
        have hexec : executes s i := ⟨hfault, hrange, hdecode⟩
        have hother : ∀ x kk, i ≠ .rnd x kk := fun x kk h => hrnd x kk (h ▸ hexec)
        have hexec' : executes (s.driveRnd b) i := hexec
        rw [step_of_executes hexec, step_of_executes hexec']
        exact exec_driveRnd hother (tickStart s) b
    · rw [step_of_outOfRange hfault hrange, step_of_outOfRange (s := s.driveRnd b) hfault hrange]
      rfl

/-- Settles O60: the tick with the byte driven is the tick, with the byte driven on its next state. -/
theorem randomInputMattersOnlyToRnd : Obligations.RandomInputMattersOnlyToRnd := by
  intro s t b hrnd hstep
  rw [step_driveRnd hrnd b, hstep]
  rfl

end Sys2Proof.Machine

/-! PROOFS. The instructions one by one: control transfer, the ALU, the index register, the key skips. -/

namespace Sys2Proof.Machine

/-! ### Control transfer -/

/-- Settles O22: the sum is below 2^16, so it is the sum of the numbers. -/
theorem indexedJumpAddsV0 : Obligations.IndexedJumpAddsV0 := by
  intro s nnn
  exact ⟨_, (exec_jpV0 nnn s).trans (finish_jump _ s), toNat_indexedTarget nnn s.v[0], indexedTarget_le nnn s.v[0], rfl⟩

/-- Settles O23: with an entry free the arm pushes pc + 2 and jumps; with none it takes the violation. -/
theorem callPushesOrOverflows : Obligations.CallPushesOrOverflows := by
  intro s nnn
  refine ⟨fun hroom => ?pushes, fun hfull => ?overflows⟩
  case pushes =>
    refine ⟨_, (exec_call_of_room nnn hroom).trans (finish_jump _ _), rfl, rfl, fun k => ?entries, rfl⟩
    case entries =>
      simp only [Vector.getElem_set, eq_comm]
  case overflows => exact exec_call_of_full nnn hfull

/-- Settles O24: with an entry held the arm jumps to the top one, and only sp moves; with none it takes the violation. -/
theorem returnPopsOrUnderflows : Obligations.ReturnPopsOrUnderflows := by
  intro s
  refine ⟨fun k hk => ?pops, fun hempty => ?underflows⟩
  case pops =>
    have hheld : 0 < s.sp.val := by omega
    have htop : s.sp.val - 1 = k.val := by omega
    refine ⟨_, (exec_ret_of_held hheld).trans (finish_jump _ _), htop, ?target, rfl⟩
    case target => simp only [htop]
  case underflows => exact exec_ret_of_empty hempty

/-- Settles O25: the return pops the entry that the call pushed, by O23 and O24. -/
theorem returnUndoesCall : Obligations.ReturnUndoesCall := by
  intro s t u nnn hroom hcall hret
  obtain ⟨t', hcall', hsp, -, hentries, hframe⟩ := (callPushesOrOverflows s nnn).1 hroom
  obtain rfl : t' = t := Host.Outcome.next.inj (hcall'.symm.trans hcall)
  obtain ⟨u', hret', hsp', hpc', hframe'⟩ := (returnPopsOrUnderflows t').1 ⟨s.sp.val, hroom⟩ hsp
  obtain rfl : u' = u := Host.Outcome.next.inj (hret'.symm.trans hret)
  have hstack : u'.stack = t'.stack := by rw [hframe']
  have hpc : u'.pc = s.pc + 2 := by rw [hpc', hentries, if_pos rfl]
  have hspBack : u'.sp = s.sp := Fin.ext hsp'
  refine ⟨hpc, hspBack, fun k hk => ?entries, ?frame⟩
  case entries =>
    simp only [hstack]
    rw [hentries, if_neg hk]
  case frame =>
    rw [hframe', hframe, hpc, hspBack]

/-! ### The ALU -/

/-- What a write of one register leaves in the others (R22). -/
theorem getElem_set_of_ne (v : Vector Byte Config.numV) {x z : Reg} (b : Byte) (h : z ≠ x) :
    (v.set x.val b)[z.val] = v[z.val] :=
  Vector.getElem_set_ne _ _ fun hxz => h (Fin.ext hxz.symm)

/-- Settles O27: the sum of bytes is the sum modulo 256, and only Vx is written. -/
theorem addImmediateWrapsWithoutFlag : Obligations.AddImmediateWrapsWithoutFlag := by
  intro s x kk
  refine ⟨_, (exec_addByte x kk s).trans (finish_next _), ?sum, fun z hz => getElem_set_of_ne s.v _ hz, rfl⟩
  case sum =>
    rw [State.setV_v, Vector.getElem_set_self, BitVec.toNat_add]

/-- Settles O28: each bit of a bitwise result is that operation on the operands' bits, and only Vx is written. -/
theorem bitwiseOpsLeaveVF : Obligations.BitwiseOpsLeaveVF := by
  intro s x y
  refine ⟨_, _, _, (exec_orReg x y s).trans (finish_next _), (exec_andReg x y s).trans (finish_next _),
    (exec_xorReg x y s).trans (finish_next _), fun k _ => ?bits, fun z hz => ?others, rfl, rfl, rfl⟩
  case bits =>
    simp only [State.setV_v, Vector.getElem_set_self, BitVec.getLsbD_or, BitVec.getLsbD_and, BitVec.getLsbD_xor,
      and_self]
  case others =>
    exact ⟨getElem_set_of_ne s.v _ hz, getElem_set_of_ne s.v _ hz, getElem_set_of_ne s.v _ hz⟩

section
variable (s : State) (x : Reg) (r : Byte × Bool)

/-- A flag-producing instruction leaves its result in Vx, x = F included (R174; D9). -/
theorem writeFlagged_result : (writeFlagged x r s).v[x.val] = r.1 :=
  (getV_writeFlagged s x x r).trans (if_pos rfl)

/-- For every other destination VF holds the flag (R26, R174). -/
theorem writeFlagged_flag (h : x ≠ 15) : (writeFlagged x r s).v[15] = if r.2 then 1 else 0 :=
  (getV_writeFlagged s x 15 r).trans ((if_neg h.symm).trans (if_pos rfl))

/-- The other registers keep their values. -/
theorem writeFlagged_other {z : Reg} (hx : z ≠ x) (hf : z ≠ 15) : (writeFlagged x r s).v[z.val] = s.v[z.val] :=
  (getV_writeFlagged s x z r).trans ((if_neg hx).trans (if_neg hf))

/-- The whole next state of a flag-producing instruction, by the result and the flag it writes. -/
theorem finish_writeFlagged : finish .next (writeFlagged x r s) =
    .next { s with v := (writeFlagged x r s).v, pc := s.pc + 2, status := .ok } :=
  finish_next _

end

/-- The difference as an integer modulo 256 (R167, R169). -/
theorem subFlag_int (a b : Byte) : ((subFlag a b).1.toNat : Int) = ((a.toNat : Int) - b.toNat) % 256 := by
  rw [subFlag, BitVec.toNat_ofInt, Int.toNat_of_nonneg (Int.emod_nonneg _ (by decide))]
  rfl

theorem shrFlag_half (a : Byte) : (shrFlag a).1.toNat = a.toNat / 2 := by
  have := a.isLt
  exact (BitVec.toNat_ofNat _ _).trans (Nat.mod_eq_of_lt (by omega))

theorem shlFlag_double (a : Byte) : (shlFlag a).1.toNat = a.toNat * 2 % 256 :=
  BitVec.toNat_ofNat _ _

/-- Bit `k` of a byte as a flag is a digit of its quotient by 2^k (R26). -/
theorem toNat_flag_getLsbD (a : Byte) (k : Nat) :
    (if a.getLsbD k then (1 : Byte) else 0).toNat = a.toNat / 2 ^ k % 2 := by
  rw [BitVec.getLsbD, Nat.testBit_eq_decide_div_mod_eq]
  obtain h | h := Nat.mod_two_eq_zero_or_one (a.toNat / 2 ^ k) <;> simp [h]

/-- The bit that SHR shifts out is the remainder of halving (R168). -/
theorem shrFlag_bit (a : Byte) : (if (shrFlag a).2 then (1 : Byte) else 0).toNat = a.toNat % 2 := by
  rw [shrFlag, toNat_flag_getLsbD, Nat.pow_zero, Nat.div_one]

/-- The bit that SHL shifts out is the quotient by 128 (R170). -/
theorem shlFlag_bit (a : Byte) : (if (shlFlag a).2 then (1 : Byte) else 0).toNat = a.toNat / 128 := by
  have := a.isLt
  rw [shlFlag, toNat_flag_getLsbD]
  omega

/-- Settles O29: each of the four writes its flag, then its result, so Vx holds the result and, for x other
than F, VF the flag. -/
theorem flaggedArithmeticIsExact : Obligations.FlaggedArithmeticIsExact := by
  intro s x y
  refine ⟨_, _, _, _, (exec_addReg x y s).trans (finish_writeFlagged s x _),
    (exec_sub x y s).trans (finish_writeFlagged s x _), (exec_shr x y s).trans (finish_writeFlagged s x _),
    (exec_shl x y s).trans (finish_writeFlagged s x _), ⟨?sum, fun hx => ?carry⟩, ⟨?difference, fun hx => ?noBorrow⟩,
    ⟨?half, fun hx => ?shiftedOutLow⟩, ?double, fun hx => ?shiftedOutHigh⟩
  case sum => rw [writeFlagged_result, addFlag_sum]
  case carry =>
    rw [writeFlagged_flag s x _ hx]
    simp only [addFlag, decide_eq_true_eq]
  case difference => rw [writeFlagged_result, subFlag_int]
  case noBorrow =>
    rw [writeFlagged_flag s x _ hx]
    simp only [subFlag, decide_eq_true_eq]
  case half => rw [writeFlagged_result, shrFlag_half]
  case shiftedOutLow => rw [writeFlagged_flag s x _ hx, shrFlag_bit]
  case double => rw [writeFlagged_result, shlFlag_double]
  case shiftedOutHigh => rw [writeFlagged_flag s x _ hx, shlFlag_bit]

/-- Settles O30: SUB's arithmetic with the operands exchanged, and the frame of a flag-producing instruction. -/
theorem reverseSubtractIsExact : Obligations.ReverseSubtractIsExact := by
  intro s x y
  refine ⟨_, (exec_subn x y s).trans (finish_writeFlagged s x _), ?difference, fun hx => ?noBorrow,
    fun z hx hf => writeFlagged_other s x _ hx hf, rfl⟩
  case difference => rw [writeFlagged_result, subFlag_int]
  case noBorrow =>
    rw [writeFlagged_flag s x _ hx]
    simp only [subFlag, decide_eq_true_eq]

/-- Settles O31: each of the five is a write of some result and its flag. -/
theorem flaggedAluFrame : Obligations.FlaggedAluFrame := by
  intro s x y i hi
  have hflagged : ∃ r, exec i s = finish .next (writeFlagged x r s) := by
    simp only [List.mem_cons, List.not_mem_nil, or_false] at hi
    obtain rfl | rfl | rfl | rfl | rfl := hi
    · exact ⟨_, exec_addReg x y s⟩
    · exact ⟨_, exec_sub x y s⟩
    · exact ⟨_, exec_shr x y s⟩
    · exact ⟨_, exec_subn x y s⟩
    · exact ⟨_, exec_shl x y s⟩
  obtain ⟨r, hexec⟩ := hflagged
  exact ⟨_, hexec.trans (finish_writeFlagged s x r), fun z hx hf => writeFlagged_other s x r hx hf, rfl⟩

/-- Settles O32: the byte is the driven one, or the free value. -/
theorem randomLoadMasksTheInput : Obligations.RandomLoadMasksTheInput := by
  intro s x kk
  refine ⟨_, s.rnd, (exec_rnd x kk s).trans (finish_next _), fun r hdriven => ?driven, ?masked,
    fun z hz => getElem_set_of_ne s.v _ hz, rfl⟩
  case driven => rw [State.rnd, hdriven]
  case masked => exact Vector.getElem_set_self _

/-! ### The index register and the key skips -/

/-- Settles O33: the zero-extended byte keeps its value, so the sum of words is the sum modulo 65536. -/
theorem addIndexWrapsWithoutFlag : Obligations.AddIndexWrapsWithoutFlag := by
  intro s x
  refine ⟨_, (exec_addI x s).trans (finish_next _), ?sum, rfl⟩
  case sum =>
    rw [State.setI_i, BitVec.toNat_add, toNat_zextByte]
    rfl

/-- Settles O34: the byte is the number of a glyph or of none. -/
theorem fontLookupOrGlyphViolation : Obligations.FontLookupOrGlyphViolation := by
  intro s x
  refine ⟨fun hglyph => ?glyph, fun hnone => exec_ldF_of_no_glyph hnone⟩
  case glyph =>
    exact (exec_ldF_of_glyph (g := ⟨s.v[x.val].toNat, Nat.lt_succ_of_le hglyph⟩) rfl).trans (finish_next _)

/-- Settles O46: SKP is a skip on the flag and SKNP one on its negation. -/
theorem keySkipsOrKeyViolation : Obligations.KeySkipsOrKeyViolation := by
  intro s x
  refine ⟨fun k hkey => ⟨?skp, ?sknp⟩, fun hnone => ⟨exec_skp_of_no_key hnone, exec_sknp_of_no_key hnone⟩⟩
  case skp => exact (exec_skp_of_key hkey).trans (skipIf_eq Iff.rfl s)
  case sknp =>
    have hskip := skipIf_eq (c := !s.keys[k.val]) (p := ¬ s.keys[k.val] = true) (by simp) s
    rw [exec_sknp_of_key hkey, hskip, ite_not]

end Sys2Proof.Machine

/-! PROOFS. The transfers between registers and memory (44_index_memory.md). -/

namespace Sys2Proof.Machine

/-- Settles O38: a block that ends above 0xFFF fails the range check, whatever the instruction. -/
theorem blockAboveMemoryIsAllOrNothing : Obligations.BlockAboveMemoryIsAllOrNothing := by
  intro s x y n
  refine ⟨fun h => ?bcd, fun h => ⟨?store, ?load⟩, fun hn h => ?draw⟩
  case bcd => exact (exec_ldB x s).trans (guardBlock_outside s _ (by omega) (by decide))
  case store => exact (exec_storeRegs x s).trans (guardBlock_outside s _ (by omega) (Nat.succ_ne_zero _))
  case load => exact (exec_loadRegs x s).trans (guardBlock_outside s _ (by omega) (Nat.succ_ne_zero _))
  case draw =>
    have hrows : n.toNat ≠ 0 := fun h0 => hn (BitVec.eq_of_toNat_eq h0)
    exact (exec_drw x y n s).trans (guardBlock_outside s _ (by omega) hrows)

/-! ### What a run of stores leaves -/

section
variable {m : Mem} {bs : List Byte} {first : Nat} (h : first + bs.length ≤ 4096)
include h

theorem Mem.read_writeList_inside {j : Nat} {b : Byte} (hb : bs[j]? = some b) :
    (m.writeList first bs).read (first + j) = b := by
  rw [Mem.read_writeList bs m first _ h, if_pos (Nat.le_add_right _ _), Nat.add_sub_cancel_left, hb, Option.getD_some]

theorem Mem.read_writeList_outside {a : Nat} (ha : a < first ∨ first + bs.length ≤ a) :
    (m.writeList first bs).read a = m.read a := by
  by_contra hne
  obtain ⟨hfirst, hlast⟩ := Mem.mem_block_of_read_writeList_ne h hne
  omega

end

/-- Settles O35: a run of three stores, each digit below 256. -/
theorem bcdUnpackStoresThreeDigits : Obligations.BcdUnpackStoresThreeDigits := by
  intro s x hin
  have hblock : s.i.toNat + (bcdDigits s.v[x.val]).length ≤ 4096 := by
    rw [length_bcdDigits]
    omega
  have hbyte := s.v[x.val].isLt
  have hexec : exec (.ldB x) s = finish .next (s.storeBytes s.i.toNat (bcdDigits s.v[x.val])) :=
    (exec_ldB x s).trans (guardBlock_inside s _ (by omega))
  have hdigit {j n : Nat} (hj : (bcdDigits s.v[x.val])[j]? = some (BitVec.ofNat 8 n)) (hn : n < 256) :
      ((s.mem.writeList s.i.toNat (bcdDigits s.v[x.val])).read (s.i.toNat + j)).toNat = n := by
    rw [Mem.read_writeList_inside hblock hj, BitVec.toNat_ofNat, Nat.mod_eq_of_lt hn]
  refine ⟨_, hexec.trans (finish_next _), hdigit (j := 0) rfl (by omega), hdigit rfl (by omega), hdigit rfl (by omega),
    fun a ha => ?others, rfl⟩
  case others => exact Mem.read_writeList_outside hblock (by rw [length_bcdDigits]; omega)

/-- Settles O36: a run of stores of V0 to Vx. -/
theorem bulkStoreWritesTheBlock : Obligations.BulkStoreWritesTheBlock := by
  intro s x hin
  have hblock : s.i.toNat + (regBlock s x).length ≤ 4096 := by
    rw [length_regBlock]
    omega
  have hexec : exec (.storeRegs x) s = finish .next (s.storeBytes s.i.toNat (regBlock s x)) :=
    (exec_storeRegs x s).trans (guardBlock_inside s _ (by omega))
  refine ⟨_, hexec.trans (finish_next _), fun j hj => ?block, fun a ha => ?others, rfl⟩
  case block => exact Mem.read_writeList_inside hblock (getElem?_regBlock s x j hj)
  case others => exact Mem.read_writeList_outside hblock (by rw [length_regBlock]; omega)

/-- The next state of an instruction that writes registers alone. -/
theorem finish_writeRegs (s : State) (v : Vector Byte Config.numV) :
    finish .next { s with v := v } = .next { s with v := v, pc := s.pc + 2, status := .ok } :=
  finish_next _

/-- Settles O37: the registers are filled up to x and kept above. -/
theorem bulkLoadFillsTheRegisters : Obligations.BulkLoadFillsTheRegisters := by
  intro s x hin
  have hexec : exec (.loadRegs x) s = finish .next (s.fillRegs x s.i.toNat) :=
    (exec_loadRegs x s).trans (guardBlock_inside s _ (by omega))
  refine ⟨_, hexec.trans (finish_writeRegs s _), fun j => ?registers, rfl⟩
  case registers => exact State.getV_fillRegs s x j s.i.toNat

/-- Settles O39: the load reads, by O37, the bytes that the store put there, by O36. -/
theorem bulkLoadReturnsTheStoredBlock : Obligations.BulkLoadReturnsTheStoredBlock := by
  intro s t u w x hin hstore hmem hi hload j hj
  obtain ⟨t', hstore', hblock, -, hframe⟩ := bulkStoreWritesTheBlock s x hin
  obtain rfl : t' = t := Host.Outcome.next.inj (hstore'.symm.trans hstore)
  have hti : u.i = s.i := by rw [hi, hframe]
  obtain ⟨w', hload', hregs, -⟩ := bulkLoadFillsTheRegisters u x (by rw [hti]; exact hin)
  obtain rfl : w' = w := Host.Outcome.next.inj (hload'.symm.trans hload)
  rw [hregs, if_pos hj, hmem, hti, hblock j hj]

/-- Settles O40: the fetched word is the two stored bytes, by O36, and the tick runs what it decodes to, by O15. -/
theorem storedInstructionIsFetched : Obligations.StoredInstructionIsFetched := by
  intro s t u x j hj i hin hstore hmem hrunning hpc hdecode
  obtain ⟨t', hstore', hblock, -, -⟩ := bulkStoreWritesTheBlock s x hin
  obtain rfl : t' = t := Host.Outcome.next.inj (hstore'.symm.trans hstore)
  have hx := Reg.val_lt x
  have hhigh : u.mem.read u.pc.toNat = s.v[j] := by
    rw [hmem, hpc]
    exact hblock ⟨j, by omega⟩ (Nat.le_of_succ_le hj)
  have hlow : u.mem.read (u.pc.toNat + 1) = s.v[j + 1] := by
    rw [hmem, hpc]
    exact hblock ⟨j + 1, by omega⟩ hj
  have hfetched : decodeWord (fetched u) = some i := by rw [fetched, hhigh, hlow, hdecode]
  exact stepRunsTheDecodedInstruction u i ⟨hrunning, by omega, hfetched⟩

end Sys2Proof.Machine

/-! PROOFS. The sprite draw (45_display.md). -/

namespace Sys2Proof.Machine

/-! ### The words of the statements and those of the blit laws -/

/-- The sprite of the statements is the blit laws' on the rows that DRW reads (R191, R192). -/
theorem spriteCovers_iff (m : Mem) (a n x0 y0 : Nat) (r : Fin 32) (c : Fin 64) :
    SpriteCovers m a n x0 y0 r c ↔ Covered x0 y0 (m.readList a n) r c := by
  constructor
  · rintro ⟨j, hj, i, hi, hr, hc, hbit⟩
    exact ⟨j, by rwa [Mem.length_readList], i, hi, hr, hc, by rwa [Mem.getElem_readList]⟩
  · rintro ⟨j, hj, i, hi, hr, hc, hbit⟩
    rw [Mem.getElem_readList] at hbit
    exact ⟨j, by rwa [Mem.length_readList] at hj, i, hi, hr, hc, hbit⟩

theorem length_rows_le (m : Mem) (a : Nat) (n : Nibble) : (m.readList a n.toNat).length ≤ 32 := by
  have := n.isLt
  rw [Mem.length_readList]
  omega

section
variable (s : State) (x y : Reg) (n : Nibble) (r : Fin 32) (c : Fin 64)

/-- The cell (r, c) is under a 1 of the sprite that `DRW Vx, Vy, n` draws in `s`. -/
abbrev DrawCovers : Prop := SpriteCovers s.mem s.i.toNat n.toNat s.v[x.val].toNat s.v[y.val].toNat r c

/-- A covered cell is inverted (R192). -/
theorem drawn_pixel_of_covered (h : DrawCovers s x y n r c) : (drawn x y n s).fb.pixel r c = !s.fb.pixel r c :=
  (blit_pixel s.fb _ _ _ (length_rows_le _ _ n) r c).1 ((spriteCovers_iff _ _ _ _ _ _ _).mp h)

/-- Any other cell is as before. -/
theorem drawn_pixel_of_not_covered (h : ¬ DrawCovers s x y n r c) : (drawn x y n s).fb.pixel r c = s.fb.pixel r c :=
  (blit_pixel s.fb _ _ _ (length_rows_le _ _ n) r c).2 (mt (spriteCovers_iff _ _ _ _ _ _ _).mpr h)

/-- The draw collides iff a covered cell was on (R193). -/
theorem drawn_collision_iff :
    (drawn x y n s).collision = true ↔ ∃ r c, DrawCovers s x y n r c ∧ s.fb.pixel r c = true := by
  simp only [DrawCovers, spriteCovers_iff]
  exact blit_collision s.fb _ _ _ (length_rows_le _ _ n)

/-- The report lists the covered cells with their new values (R195). -/
theorem mem_drawn_changed_iff (k : ChangedCell) :
    k ∈ (drawn x y n s).changed ↔ DrawCovers s x y n k.row k.col ∧ k.on = (drawn x y n s).fb.pixel k.row k.col := by
  have hmem := blit_changed s.fb s.v[x.val].toNat s.v[y.val].toNat _ (length_rows_le s.mem s.i.toNat n) k
  rw [← spriteCovers_iff] at hmem
  refine hmem.trans (and_congr_right fun hcovers => ?_)
  rw [drawn_pixel_of_covered s x y n _ _ hcovers]

/-- What DRW answers when its rows lie in memory. -/
theorem exec_drw_inside (h : n = 0 ∨ s.i.toNat + n.toNat - 1 ≤ 0xFFF) :
    exec (.drw x y n) s = .next { s with
      v := s.v.set 15 (flagByte (drawn x y n s).collision), fb := (drawn x y n s).fb,
      blitReport := ⟨(drawn x y n s).changed, (drawn x y n s).collision⟩, pc := s.pc + 2, status := .ok } := by
  have hin : s.i.toNat + n.toNat ≤ 4096 ∨ n.toNat = 0 := by
    obtain rfl | hle := h
    · exact .inr rfl
    · omega
  exact (exec_drw x y n s).trans ((guardBlock_inside s _ hin).trans (finish_next _))

end

theorem flagByte_eq_one_iff (b : Bool) : flagByte b = 1 ↔ b = true := by
  cases b <;> decide

theorem flagByte_eq_zero_or_one (b : Bool) : flagByte b = 0 ∨ flagByte b = 1 := by
  cases b
  · exact .inl rfl
  · exact .inr rfl

theorem vf_setVF (v : Vector Byte Config.numV) (b : Byte) : (v.set 15 b)[15] = b :=
  Vector.getElem_set_self _

/-- Settles O42, by the laws of the blit: which cells it inverts, and when it collides. -/
theorem drawXorsTheSprite : Obligations.DrawXorsTheSprite := by
  intro s x y n h
  refine ⟨_, exec_drw_inside s x y n h,
    fun r c => ⟨drawn_pixel_of_covered s x y n r c, drawn_pixel_of_not_covered s x y n r c⟩, ?flag, ?collision,
    fun z hz => getElem_set_of_ne s.v (x := 15) _ hz, rfl⟩
  case flag =>
    rw [vf_setVF]
    exact flagByte_eq_zero_or_one _
  case collision =>
    rw [vf_setVF, flagByte_eq_one_iff]
    exact drawn_collision_iff s x y n

/-! ### The blit report -/

theorem Mem.readList_succ (m : Mem) (a n : Nat) : m.readList a (n + 1) = m.read a :: m.readList (a + 1) n := by
  simp [Mem.readList, List.range_succ_eq_map, Nat.add_assoc, Nat.add_comm 1]

/-- The cells of a sprite in memory, in loop order: row by row, each row from its own byte (R192). -/
theorem spriteCells_readList (m : Mem) (x0 y0 a n : Nat) :
    spriteCells x0 y0 (m.readList a n) =
      (List.range n).flatMap fun j => rowCells x0 (blitRowOf (y0 + j)) (m.read (a + j)) := by
  induction n generalizing y0 a with
  | zero => rfl
  | succ n ih =>
    simp [Mem.readList_succ, spriteCells, ih, List.range_succ_eq_map, List.flatMap_map, Nat.add_assoc, Nat.add_comm 1]

/-- The report's entry for a sprite cell, its value read from `fb` (R195). -/
def SpriteCell.entry (fb : FrameBuffer) (k : SpriteCell) : ChangedCell := ⟨k.row, k.col, fb.pixel k.row k.col⟩

/-- The statements' loop order is the order of the sprite's cells (R192, R195). -/
theorem reportInLoopOrder_eq (m : Mem) (a n x0 y0 : Nat) (fb : FrameBuffer) :
    reportInLoopOrder m a n x0 y0 fb =
      ((spriteCells x0 y0 (m.readList a n)).filter SpriteCell.bit).map (SpriteCell.entry fb) := by
  rw [spriteCells_readList, List.filter_flatMap, List.map_flatMap, reportInLoopOrder]
  refine List.flatMap_congr fun j _ => ?_
  rw [rowCells, List.filter_map, List.map_map]
  rfl

/-- The cells of the 1 bits, in loop order, are the report, each with its value after the blit (R195). -/
theorem blit_changed_eq (fb : FrameBuffer) (x0 y0 : Nat) (rows : List Byte) (h : rows.length ≤ 32) :
    (blit fb x0 y0 rows).changed =
      ((spriteCells x0 y0 rows).filter SpriteCell.bit).map (SpriteCell.entry (blit fb x0 y0 rows).fb) := by
  obtain ⟨hpixel, -, -, hchanged⟩ := foldl_blitCell _ (spriteCells_places x0 y0 rows h) ⟨fb, false, []⟩
  rw [blit, blitRows_eq, hchanged, List.nil_append]
  refine List.map_congr_left fun k hk => ?_
  obtain ⟨hcell, hbit⟩ := List.mem_filter.mp hk
  rw [SpriteCell.entry, hpixel k hcell, hbit, Bool.xor_true]

/-- No cell is reported twice, since no two bits reach one cell (R192). -/
theorem blit_changed_nodup (fb : FrameBuffer) (x0 y0 : Nat) (rows : List Byte) (h : rows.length ≤ 32) :
    ((blit fb x0 y0 rows).changed.map fun k => (k.row, k.col)).Nodup := by
  rw [blit_changed_eq fb x0 y0 rows h, List.map_map]
  exact (spriteCells_places x0 y0 rows h).sublist (List.filter_sublist.map SpriteCell.place)

/-- Settles O43: the report is the sprite's 1 bits in loop order, at places that are all different. -/
theorem drawReportsTheChangedCells : Obligations.DrawReportsTheChangedCells := by
  intro s t x y n h hexec
  obtain rfl := eq_of_next (exec_drw_inside s x y n h) hexec
  have hrows := length_rows_le s.mem s.i.toNat n
  refine ⟨?collision, ?loopOrder, blit_changed_nodup s.fb _ _ _ hrows, mem_drawn_changed_iff s x y n⟩
  case collision =>
    rw [vf_setVF, flagByte_eq_one_iff]
  case loopOrder =>
    rw [reportInLoopOrder_eq]
    exact blit_changed_eq s.fb _ _ _ hrows

/-- Settles O44: the second draw covers the same cells, by O42, and inverts each of them back. -/
theorem drawTwiceRestoresTheDisplay : Obligations.DrawTwiceRestoresTheDisplay := by
  intro s t u x y n hx hy h hfirst hsecond
  obtain ⟨t', hfirst', hpixel, -, -, hregs, hframe⟩ := drawXorsTheSprite s x y n h
  obtain rfl : t' = t := Host.Outcome.next.inj (hfirst'.symm.trans hfirst)
  have hi : t'.i = s.i := by rw [hframe]
  have hmem : t'.mem = s.mem := by rw [hframe]
  obtain ⟨u', hsecond', hpixel', -, hcollision, -, -⟩ := drawXorsTheSprite t' x y n (by rwa [hi])
  obtain rfl : u' = u := Host.Outcome.next.inj (hsecond'.symm.trans hsecond)
  rw [hi, hmem, hregs x hx, hregs y hy] at hpixel' hcollision
  refine ⟨FrameBuffer.ext_pixel fun r c => ?restored, hcollision.trans ?turnedOn⟩
  case restored =>
    obtain ⟨hon, hoff⟩ := hpixel r c
    obtain ⟨hon', hoff'⟩ := hpixel' r c
    by_cases hcovers : DrawCovers s x y n r c
    · rw [hon' hcovers, hon hcovers, Bool.not_not]
    · rw [hoff' hcovers, hoff hcovers]
  case turnedOn =>
    refine exists_congr fun r => exists_congr fun c => and_congr_left fun ht => ?_
    obtain ⟨hon, hoff⟩ := hpixel r c
    constructor
    · intro hcovers
      rw [hon hcovers] at ht
      simpa using ht
    · intro hs
      by_contra hcovers
      rw [hoff hcovers, hs] at ht
      exact Bool.false_ne_true ht

end Sys2Proof.Machine
